-- ==== Sys2Proof/Word.lean ====
section
/-! DEFINITION. The widths of the machine's values (00_scope.md R4, R6, R7): every value is unsigned. -/

namespace Sys2Proof

/-- A general register, a memory byte, a timer, an immediate `kk` (XLEN = 8, R20, R36, R74). -/
abbrev Byte := BitVec 8

/-- An instruction word, `I`, `pc`, a call-stack entry (R23, R32, R34, R70). -/
abbrev Word := BitVec 16

/-- A 12-bit address field `nnn` (R74). -/
abbrev Addr12 := BitVec 12

/-- A 4-bit immediate: the sprite height `n` of DRW (R74). -/
abbrev Nibble := BitVec 4

/-- The number of a general register, a field `x` or `y` (R20, R75). -/
abbrev RegIdx := Fin 16

end Sys2Proof
end

