-- ==== Sys2Proof/Syntax.lean ====
section
/-! DEFINITION. The instruction set: one constructor per row of spec/opcode_table.json, in the table's order, carrying
"only the operand fields relevant to that opcode" (30_encoding.md R73). -/

namespace Sys2Proof

/-- A decoded instruction (30_encoding.md R73, R86). -/
inductive Instr where
  /-- CLS, 00E0 (R192). -/
  | cls
  /-- RET, 00EE (R121). -/
  | ret
  /-- JP, 1nnn (R122). -/
  | jp (nnn : Addr12)
  /-- CALL, 2nnn (R123). -/
  | call (nnn : Addr12)
  /-- SE_IMM, 3xkk (R125). -/
  | seImm (x : RegIdx) (kk : Byte)
  /-- SNE_IMM, 4xkk (R126). -/
  | sneImm (x : RegIdx) (kk : Byte)
  /-- SE_REG, 5xy?, low nibble ignored (R127, R79). -/
  | seReg (x y : RegIdx)
  /-- LD_IMM, 6xkk (R142). -/
  | ldImm (x : RegIdx) (kk : Byte)
  /-- ADD_IMM, 7xkk (R143). -/
  | addImm (x : RegIdx) (kk : Byte)
  /-- LD_REG, 8xy0 (R144). -/
  | ldReg (x y : RegIdx)
  /-- OR, 8xy1 (R145). -/
  | orReg (x y : RegIdx)
  /-- AND, 8xy2 (R146). -/
  | andReg (x y : RegIdx)
  /-- XOR, 8xy3 (R147). -/
  | xorReg (x y : RegIdx)
  /-- ADD_REG, 8xy4 (R148). -/
  | addReg (x y : RegIdx)
  /-- SUB, 8xy5 (R149). -/
  | sub (x y : RegIdx)
  /-- SHR, 8xy6 (R151). -/
  | shr (x y : RegIdx)
  /-- SUBN, 8xy7 (R150). -/
  | subn (x y : RegIdx)
  /-- SHL, 8xyE (R152). -/
  | shl (x y : RegIdx)
  /-- SNE_REG, 9xy?, low nibble ignored (R128, R79). -/
  | sneReg (x y : RegIdx)
  /-- LD_I, Annn (R170). -/
  | ldI (nnn : Addr12)
  /-- JP_OFF, Bnnn; `x` is bits 11:8 of `nnn` again (R124, R71 format XNNN). -/
  | jpOff (x : RegIdx) (nnn : Addr12)
  /-- RND, Cxkk (R154). -/
  | rnd (x : RegIdx) (kk : Byte)
  /-- DRW, Dxyn (R194). -/
  | drw (x y : RegIdx) (n : Nibble)
  /-- SKP, Ex9E (R201). -/
  | skp (x : RegIdx)
  /-- SKNP, ExA1 (R202). -/
  | sknp (x : RegIdx)
  /-- LD_VX_DT, Fx07 (R203). -/
  | ldVxDt (x : RegIdx)
  /-- WAITKEY, Fx0A (R206). -/
  | waitkey (x : RegIdx)
  /-- LD_DT_VX, Fx15 (R204). -/
  | ldDtVx (x : RegIdx)
  /-- LD_ST_VX, Fx18 (R205). -/
  | ldStVx (x : RegIdx)
  /-- ADD_I, Fx1E (R171). -/
  | addI (x : RegIdx)
  /-- LD_F, Fx29 (R172). -/
  | ldF (x : RegIdx)
  /-- BCD, Fx33 (R173). -/
  | bcd (x : RegIdx)
  /-- STORE, Fx55; `x` is the last register of the block (R174). -/
  | store (x : RegIdx)
  /-- LOAD, Fx65; `x` is the last register of the block (R175). -/
  | load (x : RegIdx)
  deriving DecidableEq, Repr

end Sys2Proof
end

