-- ==== Sys2Proof/WellFormed.lean ====
section
/-! DEFINITION. Which terms of Instr are instructions of the machine. Field widths are in the types; the one relation
between two fields is that JP_OFF's `x` is bits 11:8 of its `nnn` (30_encoding.md R71, R75). -/

namespace Sys2Proof

/-- Field `x` of a word, read off its `nnn`: bits 11:8 (R11). -/
def Addr12.fieldX (nnn : Addr12) : RegIdx := (nnn.extractLsb' 8 4).toFin

/-- The fields agree with some instruction word.
DEDUCED (log entry 23), safe: JP_OFF carries both overlapping fields because R73 lists both. -/
def Instr.wellFormed : Instr → Bool
  | .jpOff x nnn => x == Addr12.fieldX nnn
  | .cls | .ret | .jp _ | .call _ | .seImm _ _ | .sneImm _ _ | .seReg _ _ | .ldImm _ _ | .addImm _ _
  | .ldReg _ _ | .orReg _ _ | .andReg _ _ | .xorReg _ _ | .addReg _ _ | .sub _ _ | .shr _ _ | .subn _ _
  | .shl _ _ | .sneReg _ _ | .ldI _ | .rnd _ _ | .drw _ _ _ | .skp _ | .sknp _ | .ldVxDt _ | .waitkey _
  | .ldDtVx _ | .ldStVx _ | .addI _ | .ldF _ | .bcd _ | .store _ | .load _ => true

end Sys2Proof
end

