-- ==== Sys2Proof/Decode.lean ====
section
/-! DEFINITION. The decoder (30_encoding.md R73), the encoder (R71, R76 to R81, R86) and the opcode table's mask and match
of each instruction. Which numbers the groups and selectors have is in the spec's rules, there marked general
knowledge: UNVERIFIED (log entry 10), unsafe. -/

namespace Sys2Proof

/-- A word from its two bytes, the byte at the lower address first (20_memory.md R50). -/
def assemble (hi lo : Byte) : Word := hi ++ lo

/-- The two bytes of a word in memory order (R50). -/
def wordBytes (w : Word) : List Byte := [w.extractLsb' 8 8, w.extractLsb' 0 8]

/-- `op = w[15:12]` (R11). -/
def Fields.op (w : Word) : Nibble := w.extractLsb' 12 4
/-- `x = w[11:8]` (R11). -/
def Fields.x (w : Word) : RegIdx := (w.extractLsb' 8 4).toFin
/-- `y = w[7:4]` (R11). -/
def Fields.y (w : Word) : RegIdx := (w.extractLsb' 4 4).toFin
/-- `n = w[3:0]` (R11). -/
def Fields.n (w : Word) : Nibble := w.extractLsb' 0 4
/-- `kk = w[7:0]` (R11). -/
def Fields.kk (w : Word) : Byte := w.extractLsb' 0 8
/-- `nnn = w[11:0]` (R11). -/
def Fields.nnn (w : Word) : Addr12 := w.extractLsb' 0 12

/-- What the decoder answers: one instruction, or `Unsupported(w)` with the offending raw word (R73). -/
inductive Decoded where
  | instr (i : Instr)
  | unsupported (w : Word)
  deriving DecidableEq, Repr

/-- Group 8, selected by the low nibble (R73, R79). -/
def decodeArith (w : Word) : Decoded :=
  let x := Fields.x w
  let y := Fields.y w
  match (Fields.n w).toNat with
  | 0x0 => .instr (.ldReg x y)
  | 0x1 => .instr (.orReg x y)
  | 0x2 => .instr (.andReg x y)
  | 0x3 => .instr (.xorReg x y)
  | 0x4 => .instr (.addReg x y)
  | 0x5 => .instr (.sub x y)
  | 0x6 => .instr (.shr x y)
  | 0x7 => .instr (.subn x y)
  | 0xE => .instr (.shl x y)
  | _ => .unsupported w

/-- Group E, selected by the low byte (R73, R81). -/
def decodeKeys (w : Word) : Decoded :=
  match (Fields.kk w).toNat with
  | 0x9E => .instr (.skp (Fields.x w))
  | 0xA1 => .instr (.sknp (Fields.x w))
  | _ => .unsupported w

/-- Group F, selected by the low byte (R73, R81). -/
def decodeMulti (w : Word) : Decoded :=
  let x := Fields.x w
  match (Fields.kk w).toNat with
  | 0x07 => .instr (.ldVxDt x)
  | 0x0A => .instr (.waitkey x)
  | 0x15 => .instr (.ldDtVx x)
  | 0x18 => .instr (.ldStVx x)
  | 0x1E => .instr (.addI x)
  | 0x29 => .instr (.ldF x)
  | 0x33 => .instr (.bcd x)
  | 0x55 => .instr (.store x)
  | 0x65 => .instr (.load x)
  | _ => .unsupported w

/-- Group 0 has exactly two legal words (R73, R76). -/
def decodeSystem (w : Word) : Decoded :=
  if w = 0x00E0 then .instr .cls
  else if w = 0x00EE then .instr .ret
  else .unsupported w

/-- The decoder: pure, total, reading no state and no flag (R73). Groups 5 and 9 do not examine `n` (R79, decision D6:
UNVERIFIED, log entry 13, unsafe). -/
def decode (w : Word) : Decoded :=
  let x := Fields.x w
  let y := Fields.y w
  let kk := Fields.kk w
  let nnn := Fields.nnn w
  match (Fields.op w).toNat with
  | 0x0 => decodeSystem w
  | 0x1 => .instr (.jp nnn)
  | 0x2 => .instr (.call nnn)
  | 0x3 => .instr (.seImm x kk)
  | 0x4 => .instr (.sneImm x kk)
  | 0x5 => .instr (.seReg x y)
  | 0x6 => .instr (.ldImm x kk)
  | 0x7 => .instr (.addImm x kk)
  | 0x8 => decodeArith w
  | 0x9 => .instr (.sneReg x y)
  | 0xA => .instr (.ldI nnn)
  | 0xB => .instr (.jpOff x nnn)
  | 0xC => .instr (.rnd x kk)
  | 0xD => .instr (.drw x y (Fields.n w))
  | 0xE => decodeKeys w
  | _ => decodeMulti w

/-- Format NNN: `op || nnn` (R71). -/
def encNNN (op : Nibble) (nnn : Addr12) : Word := op ++ nnn

/-- Formats XKK and XS: `op || x || kk` (R71). -/
def encXKK (op : Nibble) (x : RegIdx) (kk : Byte) : Word :=
  (op ++ (BitVec.ofNat 4 x.val ++ kk) : BitVec (4 + (4 + 8)))

/-- Formats XY, XYS and XYN: `op || x || y || n` (R71). -/
def encXYN (op : Nibble) (x y : RegIdx) (n : Nibble) : Word :=
  (op ++ (BitVec.ofNat 4 x.val ++ (BitVec.ofNat 4 y.val ++ n)) : BitVec (4 + (4 + (4 + 4))))

/-- The word of an instruction, 0 in every don't-care nibble (R76 to R81, R86). -/
def encode : Instr → Word
  | .cls => 0x00E0
  | .ret => 0x00EE
  | .jp nnn => encNNN 0x1 nnn
  | .call nnn => encNNN 0x2 nnn
  | .seImm x kk => encXKK 0x3 x kk
  | .sneImm x kk => encXKK 0x4 x kk
  | .seReg x y => encXYN 0x5 x y 0x0
  | .ldImm x kk => encXKK 0x6 x kk
  | .addImm x kk => encXKK 0x7 x kk
  | .ldReg x y => encXYN 0x8 x y 0x0
  | .orReg x y => encXYN 0x8 x y 0x1
  | .andReg x y => encXYN 0x8 x y 0x2
  | .xorReg x y => encXYN 0x8 x y 0x3
  | .addReg x y => encXYN 0x8 x y 0x4
  | .sub x y => encXYN 0x8 x y 0x5
  | .shr x y => encXYN 0x8 x y 0x6
  | .subn x y => encXYN 0x8 x y 0x7
  | .shl x y => encXYN 0x8 x y 0xE
  | .sneReg x y => encXYN 0x9 x y 0x0
  | .ldI nnn => encNNN 0xA nnn
  | .jpOff _ nnn => encNNN 0xB nnn
  | .rnd x kk => encXKK 0xC x kk
  | .drw x y n => encXYN 0xD x y n
  | .skp x => encXKK 0xE x 0x9E
  | .sknp x => encXKK 0xE x 0xA1
  | .ldVxDt x => encXKK 0xF x 0x07
  | .waitkey x => encXKK 0xF x 0x0A
  | .ldDtVx x => encXKK 0xF x 0x15
  | .ldStVx x => encXKK 0xF x 0x18
  | .addI x => encXKK 0xF x 0x1E
  | .ldF x => encXKK 0xF x 0x29
  | .bcd x => encXKK 0xF x 0x33
  | .store x => encXKK 0xF x 0x55
  | .load x => encXKK 0xF x 0x65

/-- The row's "mask" and "match" in the opcode table: a word `w` is of the row when `w & mask = match` (R76 to R81). -/
def tableRow : Instr → Word × Word
  | .cls => (0xFFFF, 0x00E0)
  | .ret => (0xFFFF, 0x00EE)
  | .jp _ => (0xF000, 0x1000)
  | .call _ => (0xF000, 0x2000)
  | .seImm _ _ => (0xF000, 0x3000)
  | .sneImm _ _ => (0xF000, 0x4000)
  | .seReg _ _ => (0xF000, 0x5000)
  | .ldImm _ _ => (0xF000, 0x6000)
  | .addImm _ _ => (0xF000, 0x7000)
  | .ldReg _ _ => (0xF00F, 0x8000)
  | .orReg _ _ => (0xF00F, 0x8001)
  | .andReg _ _ => (0xF00F, 0x8002)
  | .xorReg _ _ => (0xF00F, 0x8003)
  | .addReg _ _ => (0xF00F, 0x8004)
  | .sub _ _ => (0xF00F, 0x8005)
  | .shr _ _ => (0xF00F, 0x8006)
  | .subn _ _ => (0xF00F, 0x8007)
  | .shl _ _ => (0xF00F, 0x800E)
  | .sneReg _ _ => (0xF000, 0x9000)
  | .ldI _ => (0xF000, 0xA000)
  | .jpOff _ _ => (0xF000, 0xB000)
  | .rnd _ _ => (0xF000, 0xC000)
  | .drw _ _ _ => (0xF000, 0xD000)
  | .skp _ => (0xF0FF, 0xE09E)
  | .sknp _ => (0xF0FF, 0xE0A1)
  | .ldVxDt _ => (0xF0FF, 0xF007)
  | .waitkey _ => (0xF0FF, 0xF00A)
  | .ldDtVx _ => (0xF0FF, 0xF015)
  | .ldStVx _ => (0xF0FF, 0xF018)
  | .addI _ => (0xF0FF, 0xF01E)
  | .ldF _ => (0xF0FF, 0xF029)
  | .bcd _ => (0xF0FF, 0xF033)
  | .store _ => (0xF0FF, 0xF055)
  | .load _ => (0xF0FF, 0xF065)

/-- The word whose low `nbits` bits are `w`'s, every other bit 0: the table numbers bits as R7 does, and one instruction
is one word. -/
def tableWord (nbits w : Nat) : Word := BitVec.ofNat 16 (w % 2 ^ nbits)

/-- The decoder on the two bytes an instruction has in memory (R50). -/
def decodeBytes : List Byte → Option Instr
  | hi :: lo :: _ =>
    match decode (assemble hi lo) with
    | .instr i => some i
    | .unsupported _ => none
  | [_] => none
  | [] => none

/-- The host's question: what the decoder reads from an instruction with the table's bits `w`. -/
def decodeTableWord (nbits w : Nat) : Option Instr := decodeBytes (wordBytes (tableWord nbits w))

end Sys2Proof
end

