-- ==== Sys2Proof/Config.lean ====
section
/-! DEFINITION. The fixed parameters of 00_scope.md R4 and the one free value of the machine, the byte that RND draws. -/

namespace Sys2Proof.Config

/-- The number of the flags register, written `V[15]` (R4 `FLAG_REG`, R22). -/
abbrev flagReg : RegIdx := 15

/-- The largest address of memory: `MEM_SIZE - 1` (R4, R36). -/
abbrev lastAddr : Nat := 4095

/-- The capacity of the call stack (R4 `STACK_CAP`, R34). -/
abbrev stackCap : Nat := 16

/-- The number of keys (R4 `NKEYS`, R38). -/
abbrev numKeys : Nat := 16

/-- `DISP_W` and `DISP_H` (R4, R37). -/
abbrev dispW : Nat := 64
abbrev dispH : Nat := 32

/-- Bytes of one instruction (R4 `INSTR_BYTES`, R70). -/
abbrev instrBytes : Nat := 2

/-- `GLYPH_BASE`, `GLYPH_STRIDE` and `GLYPH_BYTES` (R4, R56, R172). -/
abbrev glyphBase : Nat := 0
abbrev glyphStride : Nat := 5
abbrev glyphBytes : Nat := 80

/-- `PROGRAM_BASE` as State.reset has it: the conventional value of R4.
DESIGN CHOICE (log entry 7), unsafe for a claim about State.reset alone: the spec leaves the value to the host, and
`boot` takes any base. -/
abbrev programBase : Word := 0x200

/-- `draw()` of R10 and R154: the byte RND draws at its k-th execution. A FREE VALUE (R41, decision D10, log entry 4):
nothing constrains it, so a claim about one run holds for every sequence of draws: safe.
DESIGN CHOICE: one sequence serves every engine and is read from index 0 after every construction. Unsafe for a claim that
compares two engines (R243) or one engine before and after a reboot: equal draws are provable, which the spec leaves open. -/
opaque randomByte : Nat → Byte

/-- The conventional bytes of the glyph table, for information (93_implementation_defined.md GK6).
PRESUMED (log entry 27), safe: no meaning reads it, and `boot` takes any `FONT` (R4). -/
def conventionalFont : Vector Byte 80 := #v[
  0xF0, 0x90, 0x90, 0x90, 0xF0,  0x20, 0x60, 0x20, 0x20, 0x70,
  0xF0, 0x10, 0xF0, 0x80, 0xF0,  0xF0, 0x10, 0xF0, 0x10, 0xF0,
  0x90, 0x90, 0xF0, 0x10, 0x10,  0xF0, 0x80, 0xF0, 0x10, 0xF0,
  0xF0, 0x80, 0xF0, 0x90, 0xF0,  0xF0, 0x10, 0x20, 0x40, 0x40,
  0xF0, 0x90, 0xF0, 0x90, 0xF0,  0xF0, 0x90, 0xF0, 0x10, 0xF0,
  0xF0, 0x90, 0xF0, 0x90, 0x90,  0xE0, 0x90, 0xE0, 0x90, 0xE0,
  0xF0, 0x80, 0x80, 0x80, 0xF0,  0xE0, 0x90, 0x90, 0x90, 0xE0,
  0xF0, 0x80, 0xF0, 0x80, 0xF0,  0xF0, 0x80, 0xF0, 0x80, 0x80]

end Sys2Proof.Config
end

