-- ==== Sys2Proof/Machine/State.lean ====
section
/-! DEFINITION. The machine's state (the tuple at the head of 10_state.md), the ways a step can stop, and reset. -/

namespace Sys2Proof.Machine

/-- Main memory (R36) as the cells that do not hold what an unlisted address reads as, addresses strictly rising. -/
abbrev Memory := List Host.Cell

/-- The framebuffer (R37): 32 rows of 64 pixels, `true` for on. -/
abbrev Display := Vector (Vector Bool 64) 32

/-- Machine status (R30): `running` at reset, `faulted` once a move faults (`enterFaulted`), and then for good. -/
inductive Status where
  | running
  | faulted
  deriving DecidableEq, Repr, Inhabited

/-- The three typed errors of a step (R220 to R223). The state after one is the state before it (R100). -/
inductive StepError where
  /-- The fetched word does not decode; it carries the raw word (R221). -/
  | unsupportedInstruction (w : Word)
  /-- CALL with 16 entries on the stack (R222). -/
  | stackOverflow
  /-- RET with an empty stack (R223). -/
  | stackUnderflow
  deriving DecidableEq, Repr

/-- The state-changing moves after boot (R240): a step, a timer event, a key write. -/
inductive HostMove where
  /-- `Tick` (R102). -/
  | tick
  /-- `TimerTick` (R238). -/
  | timerTick
  /-- `KeyWrite(k, b)` (R242). -/
  | keyWrite (k : Fin 16) (b : Bool)
  deriving DecidableEq, Repr

/-- The state: the spec's tuple (10_state.md), its two construction flags, and three fields of the model's own. -/
structure State where
  /-- `V[0..15]` (R20). -/
  v : Vector Byte 16
  /-- Index register `I` (R32). -/
  i : Word
  /-- Delay timer (R27). -/
  dt : Byte
  /-- Sound timer (R28). -/
  st : Byte
  /-- Program counter (R23). UNVERIFIED width (decision D2, log entry 25), safe: no reachable value needs more. -/
  pc : Word
  /-- Call stack, oldest entry first (R34). -/
  stk : List Word
  /-- `MEM[0..4095]` (R36). -/
  mem : Memory
  /-- `FB` (R37). -/
  fb : Display
  /-- `KEY[0..15]`, `true` for down (R38). -/
  key : Vector Bool 16
  /-- Machine status (R30); `advance` writes it when a move faults. -/
  status : Status
  /-- `LEGACY_SHIFT` (R5, R29), fixed at construction. -/
  legacyShift : Bool
  /-- `CHIP48_JUMP` (R5, R29), fixed at construction. -/
  chip48Jump : Bool
  /-- The model's own: what the last step told the host, none for `Ok` (R100, R229).
  DESIGN CHOICE (log entry 2), safe: no step reads it. -/
  report : Option StepError
  /-- The model's own: how many bytes RND has drawn, where the free value is read next (R154, R41).
  DESIGN CHOICE (log entry 4), safe for one run: the value drawn is unconstrained at every index; unsafe for a claim that
  compares two engines or two boots, since every construction starts it at 0. -/
  draws : Nat
  /-- The model's own: the host's next moves; when empty the host requests a step (R239, R242).
  DESIGN CHOICE (log entry 5), unsafe for a claim about State.reset or boot's state alone: their agenda is
  empty. -/
  agenda : List HostMove
  deriving DecidableEq, Repr, Inhabited

/-- Why the machine stops. -/
inductive Fault where
  /-- An access at address `a` above 4095 (R225): raised by the fetch, BCD, STORE, LOAD and DRW. Safe: the spec
  leaves the state after it undefined but for `status` (R224, log entries 3 and 19). -/
  | memoryBounds (a : Nat)
  /-- A key index above 15 (R226): raised by SKP, SKNP and WAITKEY. Safe (log entry 18). -/
  | keyIndex (v : Byte)
  /-- A move asked of a machine whose status is `Faulted`, which is no move (R100, R224): raised by `nextMove`. Safe: a
  stuck state (log entry 3). -/
  | notRunning
  deriving DecidableEq, Repr

/-- Why an instruction has no meaning. -/
inductive Refusal where
  /-- An instruction not modelled yet; raised by `exec` only. Safe. No arm raises it now. -/
  | notModelled (mnemonic : String)
  deriving DecidableEq, Repr

/-- What a step, and each instruction's meaning, answers. -/
abbrev Result := Host.Outcome State Fault Refusal

/-- `Construct(LEGACY_SHIFT, CHIP48_JUMP)` (R261): the state of R260 before font and image are loaded.
UNVERIFIED reset values (decision D3, log entry 6), unsafe. `pc` is not used before `SetPC` (R262).
`draws` starts at 0 for every engine: DESIGN CHOICE (log entry 4), unsafe for a claim that compares engines or boots. -/
def State.construct (legacyShift chip48Jump : Bool) : State where
  v := Vector.replicate 16 0
  i := 0
  dt := 0
  st := 0
  pc := 0
  stk := []
  mem := []
  fb := Vector.replicate 32 (Vector.replicate 64 false)
  key := Vector.replicate 16 false
  status := .running
  legacyShift := legacyShift
  chip48Jump := chip48Jump
  report := none
  draws := 0
  agenda := []

/-- The machine right after reset (R260): both flags false (DESIGN CHOICE, log entry 1, unsafe), pc at the program's base
(log entry 7), font and image not loaded (log entry 8). -/
def State.reset : State := { State.construct false false with pc := Config.programBase }

end Sys2Proof.Machine

namespace Sys2Proof.Config

/-- What the components that a fault leaves undefined hold after a fault in a state (R224). A FREE VALUE (log entry 3):
nothing constrains it, so no claim can depend on it. Safe. -/
opaque undefinedAfterFault : Machine.State → Machine.State

end Sys2Proof.Config
end

