-- ==== Sys2Proof/Machine/Ops.lean ====
section
/-! DEFINITION. The named operations over the state: one update per field, memory, the fetch, the call stack, the
framebuffer's primitives, and the ends of a step (commit, error, fault). -/

namespace Sys2Proof.Machine

/-! ### Updates of one field -/

/-- `V[x] <- b` (R8, R20). -/
def State.setV (s : State) (x : RegIdx) (b : Byte) : State := { s with v := s.v.set x.val b }
/-- All general registers at once (LOAD, R175). -/
def State.setRegs (s : State) (v : Vector Byte 16) : State := { s with v := v }
/-- `I <- w` (R33). -/
def State.setI (s : State) (w : Word) : State := { s with i := w }
/-- `DT <- b` (R27). -/
def State.setDt (s : State) (b : Byte) : State := { s with dt := b }
/-- `ST <- b` (R28). -/
def State.setSt (s : State) (b : Byte) : State := { s with st := b }
/-- `pc <- w` (R8). -/
def State.setPc (s : State) (w : Word) : State := { s with pc := w }
/-- The call stack after a push or a pop (R35). -/
def State.setStk (s : State) (l : List Word) : State := { s with stk := l }
/-- Memory after a write (R54). -/
def State.setMem (s : State) (m : Memory) : State := { s with mem := m }
/-- The framebuffer after CLS or DRW (R37). -/
def State.setFb (s : State) (d : Display) : State := { s with fb := d }
/-- `KEY[k] <- b` (R242). -/
def State.setKey (s : State) (k : Fin 16) (b : Bool) : State := { s with key := s.key.set k.val b }
/-- What the step tells the host (R100). -/
def State.setReport (s : State) (r : Option StepError) : State := { s with report := r }
/-- One more byte has been drawn (R154). -/
def State.setDraws (s : State) (n : Nat) : State := { s with draws := n }
/-- The host's moves still to come (R240). -/
def State.setAgenda (s : State) (l : List HostMove) : State := { s with agenda := l }

/-- `V[x]` (R8). -/
def State.reg (s : State) (x : RegIdx) : Byte := s.v[x.val]

/-! ### Memory (20_memory.md) -/

/-- What an address that memory does not list reads as: 0 (R36, R56).
UNVERIFIED (decision D15, log entry 9), unsafe. -/
def Memory.unlisted (_a : Nat) : Byte := 0

/-- `MEM[a]` (R8). -/
def Memory.read : Memory → Nat → Byte
  | [], a => Memory.unlisted a
  | (b, w) :: rest, a => if a = b then w else Memory.read rest a

/-- A new cell at the head, or, when it would hold what an unlisted address reads as, no cell of that address at all (in
the canonical form the cells of `m` have larger addresses, so there is none to drop). -/
def Memory.cons (a : Nat) (v : Byte) (m : Memory) : Memory :=
  if v = Memory.unlisted a then m.filter (fun c => c.1 != a) else (a, v) :: m

/-- `MEM[a] <- v`, keeping the canonical form. -/
def Memory.write : Memory → Nat → Byte → Memory
  | [], a, v => Memory.cons a v []
  | (b, w) :: rest, a, v =>
    if a < b then Memory.cons a v ((b, w) :: rest)
    else if a = b then Memory.cons a v rest
    else (b, w) :: Memory.write rest a v

/-- The canonical form: addresses strictly rising and inside the address space, no cell that an unlisted address would
read the same. -/
abbrev Memory.wf (m : Memory) : Prop :=
  m.Pairwise (fun p q => p.1 < q.1) ∧ ∀ c ∈ m, c.1 ≤ Config.lastAddr ∧ c.2 ≠ Memory.unlisted c.1

/-- `MEM[a]` in a state. -/
def State.byte (s : State) (a : Nat) : Byte := Memory.read s.mem a

/-- `MemRead(a, 1)` (R53). -/
def memRead1 (m : Memory) (a : Nat) : Except Fault Byte :=
  if a ≤ Config.lastAddr then .ok (Memory.read m a) else .error (.memoryBounds a)

/-- `MemRead(a, 2)`, big-endian (R53, R50); the fault carries the address of the second byte (C11). -/
def memRead2 (m : Memory) (a : Nat) : Except Fault Word :=
  if a + 1 ≤ Config.lastAddr then .ok (assemble (Memory.read m a) (Memory.read m (a + 1)))
  else .error (.memoryBounds (a + 1))

/-- `MemWrite(a, 1, v)` (R54). -/
def memWrite1 (m : Memory) (a : Nat) (v : Byte) : Except Fault Memory :=
  if a ≤ Config.lastAddr then .ok (Memory.write m a v) else .error (.memoryBounds a)

/-- `n` single-byte reads at ascending addresses from `a` (R55, R60). -/
def readBlock (m : Memory) (a : Nat) : Nat → Except Fault (List Byte)
  | 0 => .ok []
  | n + 1 =>
    match memRead1 m a with
    | .error f => .error f
    | .ok b =>
      match readBlock m (a + 1) n with
      | .error f => .error f
      | .ok bs => .ok (b :: bs)

/-- Single-byte writes of a list at ascending addresses from `a` (R55, R60). -/
def writeBlock (m : Memory) (a : Nat) : List Byte → Except Fault Memory
  | [] => .ok m
  | b :: bs =>
    match memWrite1 m a b with
    | .error f => .error f
    | .ok m' => writeBlock m' (a + 1) bs

/-- The word at the program counter (R101): it changes nothing. -/
def fetchWord (s : State) : Except Fault Word := memRead2 s.mem s.pc.toNat

/-! ### The call stack (R35) -/

/-- `Push(v)`. A stack longer than 16, which no run reaches, counts as full (DESIGN CHOICE, log entry 24, safe). -/
def push (v : Word) (stk : List Word) : Except StepError (List Word) :=
  if stk.length < Config.stackCap then .ok (stk ++ [v]) else .error .stackOverflow

/-- `Pop()`: the newest entry and the stack without it. -/
def pop (stk : List Word) : Except StepError (Word × List Word) :=
  match stk.getLast? with
  | some v => .ok (v, stk.dropLast)
  | none => .error .stackUnderflow

/-! ### The framebuffer (R190) -/

/-- `Get(cx, cy)`. -/
def Display.get (d : Display) (cx : Fin 64) (cy : Fin 32) : Bool := (d[cy.val])[cx.val]

/-- `Flip(cx, cy)`. -/
def Display.flip (d : Display) (cx : Fin 64) (cy : Fin 32) : Display :=
  d.set cy.val ((d[cy.val]).set cx.val (!Display.get d cx cy))

/-- `Clear(b)`. -/
def Display.clear (b : Bool) : Display := Vector.replicate 32 (Vector.replicate 64 b)

/-- `FB[cx, cy]` in a state. -/
def State.pixel (s : State) (cx : Fin 64) (cy : Fin 32) : Bool := Display.get s.fb cx cy

/-! ### The ends of a step -/

/-- Outcome `Ok`: the effect applied, then `pc <- (pc + inc) mod 65536` (R102, R104). -/
def State.commit (s : State) (inc : Word) : State := (s.setPc (s.pc + inc)).setReport none

/-- A step that ends `Ok` with pending increment `inc` (R102, R103). -/
def finish (inc : Word) (s : State) : Result := .next (s.commit inc)

/-- `pc <- target; inc <- 0`, then the end of the step (R103, R120). -/
def jumpTo (target : Word) (s : State) : Result := finish 0 (s.setPc target)

/-- The end of a skip: `inc` is 4 when the condition holds, else 2 (R103). -/
def skipIf (c : Bool) (s : State) : Result := finish (if c then 4 else 2) s

/-- Taking an error (R229): the state is the one before the step and the host is told.
DESIGN CHOICE of the representation (log entry 2), safe. -/
def raiseError (e : StepError) (s : State) : Result := .next (s.setReport (some e))

/-- Taking a fault (R224): the step's outcome is the fault; `enterFaulted` is what it makes of the machine. -/
def raiseFault (f : Fault) : Result := .fault f

/-- The machine after a fault in `s` (R30, R224): `status <- Faulted`, every other component a free value (log entry 3).
The two flags, which no event changes (R29), and the model's own fields, which the spec does not have, stay. -/
def enterFaulted (s : State) : State :=
  { Config.undefinedAfterFault s with
    status := .faulted
    legacyShift := s.legacyShift
    chip48Jump := s.chip48Jump
    report := s.report
    draws := s.draws
    agenda := s.agenda }

/-- The machine after a move from `s` with this outcome: the next state, or the faulted machine (R100, R224); where no
move was made, `s`. -/
def stateAfter (s : State) : Result → State
  | .next t => t
  | .fault (.memoryBounds _) => enterFaulted s
  | .fault (.keyIndex _) => enterFaulted s
  | .fault .notRunning => s
  | .refused _ => s

/-- Go on with the value of an access, or fault. -/
def orFault {α : Type} (r : Except Fault α) (k : α → Result) : Result :=
  match r with
  | .ok a => k a
  | .error f => raiseFault f

/-- Go on with the value of a stack operation, or take its error in the state before the step. -/
def orError {α : Type} (s : State) (r : Except StepError α) (k : α → Result) : Result :=
  match r with
  | .ok a => k a
  | .error e => raiseError e s

/-! ### Placing a word where the next step fetches it -/

/-- `s` with the bytes of `w` at its pc (where two bytes fit below 4096), running, and the host requesting a step next. -/
def placeWord (s : State) (w : Word) : State :=
  let a := s.pc.toNat
  { s with
    mem := if a + 1 ≤ Config.lastAddr then
        Memory.write (Memory.write s.mem a (w.extractLsb' 8 8)) (a + 1) (w.extractLsb' 0 8)
      else s.mem
    status := .running
    agenda := [] }

end Sys2Proof.Machine
end

