-- ==== Sys2Proof/Machine/Operands.lean ====
section
/-! DEFINITION. The operand forms: immediates (R74), the registers an instruction reads (R75, R153), the one memory
addressing mode (R176) and the key lookup (R200). -/

namespace Sys2Proof.Machine

/-- `zext_16(nnn)` (R9, R74). -/
def zext16 (nnn : Addr12) : Word := nnn.setWidth 16

/-- `ShiftSource(x, y)` (R153). -/
def shiftSource (s : State) (x y : RegIdx) : Byte := if s.legacyShift then s.reg x else s.reg y

/-- The register JP_OFF adds (R124). -/
def offsetReg (s : State) (x : RegIdx) : RegIdx := if s.chip48Jump then x else 0

/-- The effective address `I + k`, unbounded (R176). -/
def effAddr (s : State) (k : Nat) : Nat := s.i.toNat + k

/-- `V[0]` to `V[x]` in ascending order (R174). -/
def regsThrough (s : State) (x : RegIdx) : List Byte := s.v.toList.take (x.val + 1)

/-- Registers from number `k` on written with the bytes of a list, ascending (R175). -/
def fillRegs (v : Vector Byte 16) (k : Nat) : List Byte → Vector Byte 16
  | [] => v
  | b :: bs => fillRegs (v.setIfInBounds k b) (k + 1) bs

/-- `KeyDown(v)` (R200). -/
def keyDown (s : State) (v : Byte) : Except Fault Bool :=
  if h : v.toNat < 16 then .ok (s.key[v.toNat]) else .error (.keyIndex v)

/-- The address of a digit's glyph: its low nibble times 5 (R172). -/
def glyphAddr (b : Byte) : Word := BitVec.ofNat 16 (Config.glyphBase + (b.toNat % 16) * Config.glyphStride)

/-- The hundreds, tens and ones digits of a byte (R173). -/
def bcdDigits (b : Byte) : List Byte :=
  [BitVec.ofNat 8 (b.toNat / 100), BitVec.ofNat 8 (b.toNat / 10 % 10), BitVec.ofNat 8 (b.toNat % 10)]

end Sys2Proof.Machine
end

