-- ==== Sys2Proof/Machine/Flags.lean ====
section
/-! DEFINITION. What the seven flag-writing instructions put in `V[15]` (10_state.md R26), always 0 or 1, and the order of
flag and result (42_alu.md R141). -/

namespace Sys2Proof.Machine

/-- A flag as a register value. -/
def flagByte (b : Bool) : Byte := if b then 1 else 0

/-- ADD_REG: the unsigned sum exceeds 255 (R148). -/
def carryFlag (a b : Byte) : Byte := flagByte (decide (255 < a.toNat + b.toNat))

/-- SUB and SUBN: the minuend is strictly greater (R149, R150). UNVERIFIED at equality (C2, log entry 12), unsafe. -/
def greaterFlag (minuend subtrahend : Byte) : Byte := flagByte (decide (subtrahend.toNat < minuend.toNat))

/-- SHR and SHL: the low bit of the value shifted, for both directions (R151, R152, C1). -/
def lowBitFlag (b : Byte) : Byte := b &&& 1

/-- ADD_I: the unbounded sum exceeds 0xFFF (R171). -/
def beyondFlag (i : Word) (a : Byte) : Byte := flagByte (decide (0xFFF < i.toNat + a.toNat))

/-- `V[15] <- flag`, then `V[x] <- r` (R141): with `x = 15` the result stays.
UNVERIFIED for the shifts (decision D4, log entry 11), unsafe. -/
def State.setFlagThen (s : State) (flag : Byte) (x : RegIdx) (r : Byte) : State :=
  (s.setV Config.flagReg flag).setV x r

end Sys2Proof.Machine
end

