-- ==== Sys2Proof/Machine/Alu.lean ====
section
/-! DEFINITION. Register file operations (42_alu.md): LD_IMM, ADD_IMM, LD_REG, OR, AND, XOR, ADD_REG, SUB, SUBN, SHR, SHL,
RND. Every operand is read from the state before the instruction (R141). -/

namespace Sys2Proof.Machine

/-- LD_IMM (R142). -/
def execLdImm (x : RegIdx) (kk : Byte) (s : State) : Result := finish 2 (s.setV x kk)

/-- ADD_IMM (R143): wraps modulo 256 and sets no flag. -/
def execAddImm (x : RegIdx) (kk : Byte) (s : State) : Result := finish 2 (s.setV x (s.reg x + kk))

/-- LD_REG (R144). -/
def execLdReg (x y : RegIdx) (s : State) : Result := finish 2 (s.setV x (s.reg y))

/-- OR (R145). -/
def execOr (x y : RegIdx) (s : State) : Result := finish 2 (s.setV x (s.reg x ||| s.reg y))

/-- AND (R146). -/
def execAnd (x y : RegIdx) (s : State) : Result := finish 2 (s.setV x (s.reg x &&& s.reg y))

/-- XOR (R147). -/
def execXor (x y : RegIdx) (s : State) : Result := finish 2 (s.setV x (s.reg x ^^^ s.reg y))

/-- ADD_REG (R148). -/
def execAddReg (x y : RegIdx) (s : State) : Result :=
  finish 2 (s.setFlagThen (carryFlag (s.reg x) (s.reg y)) x (s.reg x + s.reg y))

/-- SUB (R149). -/
def execSub (x y : RegIdx) (s : State) : Result :=
  finish 2 (s.setFlagThen (greaterFlag (s.reg x) (s.reg y)) x (s.reg x - s.reg y))

/-- SUBN (R150). -/
def execSubn (x y : RegIdx) (s : State) : Result :=
  finish 2 (s.setFlagThen (greaterFlag (s.reg y) (s.reg x)) x (s.reg y - s.reg x))

/-- SHR (R151). -/
def execShr (x y : RegIdx) (s : State) : Result :=
  finish 2 (s.setFlagThen (lowBitFlag (shiftSource s x y)) x (shiftSource s x y >>> 1))

/-- SHL (R152): the flag is the LOW bit of the source (C1). -/
def execShl (x y : RegIdx) (s : State) : Result :=
  finish 2 (s.setFlagThen (lowBitFlag (shiftSource s x y)) x (shiftSource s x y <<< 1))

/-- RND (R154): one free byte, masked. Two engines at the same count of draws draw the same byte: DESIGN CHOICE (log entry 4),
unsafe for a claim that compares them. -/
def execRnd (x : RegIdx) (kk : Byte) (s : State) : Result :=
  finish 2 ((s.setV x (Config.randomByte s.draws &&& kk)).setDraws (s.draws + 1))

end Sys2Proof.Machine
end

