-- ==== Sys2Proof/Machine/Display.lean ====
section
/-! DEFINITION. The sprite engine (44_display.md): CLS, DRW. -/

namespace Sys2Proof.Machine

/-- CLS (R192). -/
def execCls (s : State) : Result := finish 2 (s.setFb (Display.clear false))

/-- One bit of a sprite row (R194): when bit `7 - c` of `b` is 1, the pixel `c` columns and `r` rows from the origin is
toggled, each axis modulo its size, and a pixel that was on is a collision. -/
def drawBit (ox oy r : Nat) (b : Byte) (d : Display × Bool) (c : Nat) : Display × Bool :=
  if b.getLsbD (7 - c) then
    let cx : Fin 64 := Fin.ofNat 64 (ox + c)
    let cy : Fin 32 := Fin.ofNat 32 (oy + r)
    (Display.flip d.1 cx cy, d.2 || Display.get d.1 cx cy)
  else d

/-- The eight bits of a row, most significant first (R193, R194). -/
def drawRow (ox oy r : Nat) (b : Byte) (d : Display × Bool) : Display × Bool :=
  (List.range 8).foldl (drawBit ox oy r b) d

/-- The rows of a sprite from row `r` on (R194). -/
def drawRows (ox oy : Nat) : Nat → List Byte → Display × Bool → Display × Bool
  | _, [], d => d
  | r, b :: bs, d => drawRows ox oy (r + 1) bs (drawRow ox oy r b d)

/-- DRW (R194): the origin is read first (decision D4: UNVERIFIED, log entry 11, unsafe), then the rows, then the
collision flag is written, to 0 as well as to 1. All `n` bytes are read before the first pixel is toggled: DEDUCED from
R60 (log entry 26), safe. -/
def execDrw (x y : RegIdx) (n : Nibble) (s : State) : Result :=
  orFault (readBlock s.mem (effAddr s 0) n.toNat) fun rows =>
    let d := drawRows ((s.reg x).toNat % Config.dispW) ((s.reg y).toNat % Config.dispH) 0 rows (s.fb, false)
    finish 2 ((s.setFb d.1).setV Config.flagReg (flagByte d.2))

end Sys2Proof.Machine
end

