-- ==== Sys2Proof/Machine/Flow.lean ====
section
/-! DEFINITION. Control transfer (41_flow.md): RET, JP, CALL, JP_OFF and the four register skips. -/

namespace Sys2Proof.Machine

/-- RET (R121). -/
def execRet (s : State) : Result :=
  orError s (pop s.stk) fun p => jumpTo p.1 (s.setStk p.2)

/-- JP (R122). -/
def execJp (nnn : Addr12) (s : State) : Result := jumpTo (zext16 nnn) s

/-- CALL (R123). -/
def execCall (nnn : Addr12) (s : State) : Result :=
  orError s (push (s.pc + 2) s.stk) fun l => jumpTo (zext16 nnn) (s.setStk l)

/-- JP_OFF (R124): the sum is not cut to 12 bits. UNVERIFIED (decision D17, log entry 17), safe. -/
def execJpOff (x : RegIdx) (nnn : Addr12) (s : State) : Result :=
  jumpTo ((s.reg (offsetReg s x)).setWidth 16 + zext16 nnn) s

/-- SE_IMM (R125). -/
def execSeImm (x : RegIdx) (kk : Byte) (s : State) : Result := skipIf (s.reg x == kk) s

/-- SNE_IMM (R126). -/
def execSneImm (x : RegIdx) (kk : Byte) (s : State) : Result := skipIf (s.reg x != kk) s

/-- SE_REG (R127). -/
def execSeReg (x y : RegIdx) (s : State) : Result := skipIf (s.reg x == s.reg y) s

/-- SNE_REG (R128). -/
def execSneReg (x y : RegIdx) (s : State) : Result := skipIf (s.reg x != s.reg y) s

end Sys2Proof.Machine
end

