-- ==== Sys2Proof/Machine/IndexMemory.lean ====
section
/-! DEFINITION. Index register and memory (43_index_memory.md): LD_I, ADD_I, LD_F, BCD, STORE, LOAD. None of the last three
changes `I` (decision D7: UNVERIFIED, log entry 14, unsafe). -/

namespace Sys2Proof.Machine

/-- LD_I (R170). -/
def execLdI (nnn : Addr12) (s : State) : Result := finish 2 (s.setI (zext16 nnn))

/-- ADD_I (R171): the operand is read first, then `I`, then the flag. The wrap modulo 65536 and the flag from the true
sum are decision D8: UNVERIFIED (log entry 15), unsafe. -/
def execAddI (x : RegIdx) (s : State) : Result :=
  finish 2 ((s.setI (s.i + (s.reg x).setWidth 16)).setV Config.flagReg (beyondFlag s.i (s.reg x)))

/-- LD_F (R172): the address only, no access. -/
def execLdF (x : RegIdx) (s : State) : Result := finish 2 (s.setI (glyphAddr (s.reg x)))

/-- BCD (R173). -/
def execBcd (x : RegIdx) (s : State) : Result :=
  orFault (writeBlock s.mem (effAddr s 0) (bcdDigits (s.reg x))) fun m => finish 2 (s.setMem m)

/-- STORE (R174). -/
def execStore (x : RegIdx) (s : State) : Result :=
  orFault (writeBlock s.mem (effAddr s 0) (regsThrough s x)) fun m => finish 2 (s.setMem m)

/-- LOAD (R175). -/
def execLoad (x : RegIdx) (s : State) : Result :=
  orFault (readBlock s.mem (effAddr s 0) (x.val + 1)) fun bs => finish 2 (s.setRegs (fillRegs s.v 0 bs))

end Sys2Proof.Machine
end

