-- ==== Sys2Proof/Machine/KeypadTimers.lean ====
section
/-! DEFINITION. Keypad and timer instructions (45_keypad_timers.md): SKP, SKNP, LD_VX_DT, LD_DT_VX, LD_ST_VX, WAITKEY. -/

namespace Sys2Proof.Machine

/-- SKP (R201). -/
def execSkp (x : RegIdx) (s : State) : Result :=
  orFault (keyDown s (s.reg x)) fun down => skipIf down s

/-- SKNP (R202). -/
def execSknp (x : RegIdx) (s : State) : Result :=
  orFault (keyDown s (s.reg x)) fun down => skipIf (!down) s

/-- LD_VX_DT (R203). -/
def execLdVxDt (x : RegIdx) (s : State) : Result := finish 2 (s.setV x s.dt)

/-- LD_DT_VX (R204). -/
def execLdDtVx (x : RegIdx) (s : State) : Result := finish 2 (s.setDt (s.reg x))

/-- LD_ST_VX (R205). -/
def execLdStVx (x : RegIdx) (s : State) : Result := finish 2 (s.setSt (s.reg x))

/-- WAITKEY (R206): while the key named by `V[x]` is up, `inc` is 0 and the same word is fetched again. -/
def execWaitkey (x : RegIdx) (s : State) : Result :=
  orFault (keyDown s (s.reg x)) fun down => finish (if down then 2 else 0) s

end Sys2Proof.Machine
end

