-- ==== Sys2Proof/Machine/Events.lean ====
section
/-! DEFINITION. The host's other moves after boot (60_exceptions.md R238, R240 to R242): the timer event, the key write and
the two reads. -/

namespace Sys2Proof.Machine

/-- One count of a timer: down by 1 when nonzero, never below 0 (R238). -/
def countDown (b : Byte) : Byte := if b = 0 then 0 else b - 1

/-- `TimerTick()` (R238). -/
def timerTick (s : State) : State := (s.setDt (countDown s.dt)).setSt (countDown s.st)

/-- `KeyWrite(k, b)` (R242). -/
def keyWrite (k : Fin 16) (b : Bool) (s : State) : State := s.setKey k b

/-- `ReadDisplay(cx, cy)`: it changes nothing (R241). -/
def readDisplay (s : State) (cx : Fin 64) (cy : Fin 32) : Bool := s.pixel cx cy

/-- `ReadTimers`: it changes nothing (R241). -/
def readTimers (s : State) : Byte × Byte := (s.dt, s.st)

end Sys2Proof.Machine
end

