-- ==== Sys2Proof/Machine/Tick.lean ====
section
/-! DEFINITION. The fetch-decode-execute step (40_cycle.md R101, R102) and the next move of the machine (R240). -/

namespace Sys2Proof.Machine

/-- `Tick()` (R102): fetch, decode, execute; checks in the order of R106. -/
def tick (s : State) : Result :=
  orFault (fetchWord s) fun w =>
    match decode w with
    | .instr i => exec i s
    | .unsupported w' => raiseError (.unsupportedInstruction w') s

/-- One move. A faulted machine has none (R100, R224). The agenda says which move is next, and the host requests steps
once it is used up (R239, R240; DESIGN CHOICE, log entry 5). -/
def nextMove (s : State) : Result :=
  match s.status with
  | .faulted => raiseFault .notRunning
  | .running =>
    match s.agenda with
    | [] => tick s
    | .tick :: rest => tick (s.setAgenda rest)
    | .timerTick :: rest => .next (timerTick (s.setAgenda rest))
    | .keyWrite k b :: rest => .next (keyWrite k b (s.setAgenda rest))

/-- The machine after its next move, a fault included (R30, R100, R224): a move that faults makes `status` `Faulted`, and
then it stays so. -/
def advance (s : State) : State := stateAfter s (nextMove s)

end Sys2Proof.Machine
end

