-- ==== Sys2Proof/Machine/Step.lean ====
section
/-! DEFINITION. One move of the machine, and the placing of an instruction where the next move fetches it. -/

namespace Sys2Proof.Machine

/-- One move of the machine: `nextMove`. -/
def step (s : State) : Host.Outcome State Fault Refusal := nextMove s

/-- `s` with the instruction of the table's bits `w` stored at its pc, the host requesting a step next (log entry 8). -/
def State.withFetchWord (s : State) (nbits w : Nat) : State := placeWord s (tableWord nbits w)

end Sys2Proof.Machine
end

