-- ==== Sys2Proof/Machine/Boot.lean ====
section
/-! DEFINITION. The boot sequence (70_reset_and_hazards.md R261 to R266): construct, load the font, load the image, set the
pc. The host does it once, before the first step; it has no write to memory or pc afterwards (R57, R240). -/

namespace Sys2Proof.Machine

/-- Bytes placed in memory from address `a` on. -/
def placeBytes (m : Memory) (a : Nat) : List Byte → Memory
  | [] => m
  | b :: bs => placeBytes (Memory.write m a b) (a + 1) bs

/-- `LoadFont(FONT)` (R264). -/
def loadFont (font : Vector Byte 80) (s : State) : State :=
  s.setMem (placeBytes s.mem Config.glyphBase font.toList)

/-- `LoadImage(IMAGE)` at the base (R264). -/
def loadImage (base : Fin 4096) (image : List Byte) (s : State) : State :=
  s.setMem (placeBytes s.mem base.val image)

/-- `SetPC(PROGRAM_BASE)` (R265). -/
def bootPc (base : Fin 4096) (s : State) : State := s.setPc (BitVec.ofNat 16 base.val)

/-- The boot state (R266). An image that does not fit is refused by the host and never reaches the machine (R264).
DESIGN CHOICE (log entry 5), unsafe for a claim about this state as returned: its agenda is empty, so only steps follow. The
spec lets steps, timer events and key writes follow in any order (R239, R266); a claim for every host is about
`s.setAgenda l` for every `l`. -/
def boot (legacyShift chip48Jump : Bool) (font : Vector Byte 80) (base : Fin 4096) (image : List Byte) :
    Option State :=
  if base.val + image.length ≤ Config.lastAddr + 1 then
    some (bootPc base (loadImage base image (loadFont font (State.construct legacyShift chip48Jump))))
  else none

end Sys2Proof.Machine
end

