-- ==== Sys2Proof/Safety.lean ====
section
/-! DEFINITION. The terms in which claims about the machine are stated: its invariant, frames, `Ok` steps and complete runs
(40_cycle.md R108), and what the spec's tables say an instruction may write. -/

namespace Sys2Proof.Safety

open Sys2Proof.Machine

/-! ### The invariant -/

/-- What holds of every state a run reaches: memory in canonical form (R36), at most 16 return addresses, each from 2 to
4096 (R34, R121), `pc` at most 0x10FE (R25), and the machine running (R30). -/
abbrev Inv (s : State) : Prop :=
  Memory.wf s.mem ∧ s.stk.length ≤ 16 ∧ (∀ a ∈ s.stk, 2 ≤ a.toNat ∧ a.toNat ≤ 4096) ∧ s.pc.toNat ≤ 0x10FE ∧
    s.status = .running

/-! ### Steps and runs -/

/-- An `Ok` step (R100): a next state and no error told. -/
def OkStep (s t : State) : Prop := step s = .next t ∧ t.report = none

/-- `t` is reached from `s` by `k` `Ok` steps. -/
def OkRun : Nat → State → State → Prop
  | 0, s, t => s = t
  | k + 1, s, t => ∃ u, OkStep s u ∧ OkRun k u t

/-- `pc` addresses a jump to itself (R108). -/
def AtSelfJump (s : State) : Prop :=
  s.pc.toNat ≤ 0xFFF ∧ fetchWord s = .ok (BitVec.ofNat 16 (0x1000 + s.pc.toNat))

/-- The run from `s` is complete at `t` (R108): the first self-jump reached, by `Ok` steps only. It says nothing of what
the host does next or of the timers after that point. -/
def CompleteAt (s t : State) : Prop :=
  ∃ k, OkRun k s t ∧ AtSelfJump t ∧ ∀ j < k, ∀ u, OkRun j s u → ¬AtSelfJump u

/-- The faulted machine (R30, R224): status `Faulted`, and nothing said of any other component. `advance` enters it when a
move faults. -/
def AfterFault (t : State) : Prop := t.status = .faulted

/-- A result with a function applied to its next state. -/
def mapNext (f : State → State) : Result → Result
  | .next t => .next (f t)
  | .fault k => .fault k
  | .refused r => .refused r

/-! ### Frames -/

/-- The parts of the state, beside registers, memory, pc and report, that some instruction writes. -/
inductive Part where
  | index
  | delay
  | sound
  | stack
  | display
  | draws
  deriving DecidableEq, Repr

/-- No register. -/
def noReg (_r : RegIdx) : Prop := False

/-- No address. -/
def nowhere (_a : Nat) : Prop := False

/-- From `s` to `t` nothing changed but `pc`, `report`, the registers in `regs`, the bytes of memory in `bytes` and the
listed parts. The keys, the status, the two flags and the agenda are never among what an instruction changes. -/
structure Keeps (s t : State) (regs : RegIdx → Prop) (bytes : Nat → Prop) (parts : List Part) : Prop where
  reg : ∀ r, ¬regs r → t.reg r = s.reg r
  byte : ∀ a, ¬bytes a → t.byte a = s.byte a
  index : Part.index ∉ parts → t.i = s.i
  delay : Part.delay ∉ parts → t.dt = s.dt
  sound : Part.sound ∉ parts → t.st = s.st
  stack : Part.stack ∉ parts → t.stk = s.stk
  display : Part.display ∉ parts → ∀ cx cy, t.pixel cx cy = s.pixel cx cy
  draws : Part.draws ∉ parts → t.draws = s.draws
  key : t.key = s.key
  status : t.status = s.status
  legacyShift : t.legacyShift = s.legacyShift
  chip48Jump : t.chip48Jump = s.chip48Jump
  agenda : t.agenda = s.agenda

/-! ### What the spec's tables say of an instruction -/

/-- The registers an instruction may write (10_state.md R21). -/
def writesReg : Instr → RegIdx → Bool
  | .ldImm x _, r | .rnd x _, r | .ldVxDt x, r | .addImm x _, r | .ldReg x _, r | .orReg x _, r | .andReg x _, r
  | .xorReg x _, r => r == x
  | .addReg x _, r | .sub x _, r | .subn x _, r | .shr x _, r | .shl x _, r => r == x || r == Config.flagReg
  | .drw _ _ _, r | .addI _, r => r == Config.flagReg
  | .load x, r => decide (r ≤ x)
  | .cls, _ | .ret, _ | .jp _, _ | .call _, _ | .seImm _ _, _ | .sneImm _ _, _ | .seReg _ _, _ | .sneReg _ _, _
  | .ldI _, _ | .jpOff _ _, _ | .skp _, _ | .sknp _, _ | .waitkey _, _ | .ldDtVx _, _ | .ldStVx _, _ | .ldF _, _
  | .bcd _, _ | .store _, _ => false

/-- The values `inc` may have at the end of an instruction (40_cycle.md R103); none for the four that set `pc`. -/
def increments : Instr → List Word
  | .jp _ | .call _ | .ret | .jpOff _ _ => []
  | .seImm _ _ | .sneImm _ _ | .seReg _ _ | .sneReg _ _ | .skp _ | .sknp _ => [2, 4]
  | .waitkey _ => [0, 2]
  | .cls | .ldImm _ _ | .addImm _ _ | .ldReg _ _ | .orReg _ _ | .andReg _ _ | .xorReg _ _ | .addReg _ _ | .sub _ _
  | .shr _ _ | .subn _ _ | .shl _ _ | .ldI _ | .rnd _ _ | .drw _ _ _ | .ldVxDt _ | .ldDtVx _ | .ldStVx _ | .addI _
  | .ldF _ | .bcd _ | .store _ | .load _ => [2]

/-- The pixels a DRW toggles (R193, R194): some row `r` below the height and some column `c` of the eight whose bit is 1
fall, each axis modulo its size, on `(cx, cy)`. -/
def SpriteCovers (s : State) (x y : RegIdx) (n : Nibble) (cx : Fin 64) (cy : Fin 32) : Prop :=
  ∃ r < n.toNat, ∃ c < 8, ((s.reg x).toNat % 64 + c) % 64 = cx.val ∧ ((s.reg y).toNat % 32 + r) % 32 = cy.val ∧
    (s.byte (s.i.toNat + r)).getLsbD (7 - c) = true

/-- The pushes of a list of values in order (R35). -/
def pushAll (stk : List Word) : List Word → Except StepError (List Word)
  | [] => .ok stk
  | v :: vs =>
    match push v stk with
    | .ok stk' => pushAll stk' vs
    | .error e => .error e

/-- The values of `n` pops, first popped first (R35). -/
def popAll : Nat → List Word → Except StepError (List Word)
  | 0, _ => .ok []
  | n + 1, stk =>
    match pop stk with
    | .error e => .error e
    | .ok (v, rest) =>
      match popAll n rest with
      | .error e => .error e
      | .ok vs => .ok (v :: vs)

end Sys2Proof.Safety
end

