-- ==== Sys2Proof/Certificates/Slice0/Obligations.lean ====
section
/-! DEFINITION. The statements for the provers. Each docstring names the rule of spec/ it formalises, or the section it rests on
and the log entry of what it takes from a decision. In every statement `report = none` is the model's form of the outcome
`Ok` (log entry 2), and `Keeps` (Safety.lean) says what stays as it was. -/

open Sys2Proof Sys2Proof.Machine Sys2Proof.Safety

/-! ### Encoding -/

/-- Words written out from the encodings of R76 to R81, one for each family. -/
def Obligations.DecodeReadsSpecWords : Prop :=
  decode 0x00E0 = .instr .cls ∧ decode 0x00EE = .instr .ret ∧ decode 0x1234 = .instr (.jp 0x234) ∧
  decode 0x8014 = .instr (.addReg 0 1) ∧ decode 0x3A7F = .instr (.seImm 10 0x7F) ∧
  decode 0x512F = .instr (.seReg 1 2) ∧ decode 0xB3FF = .instr (.jpOff 3 0x3FF) ∧
  decode 0xD125 = .instr (.drw 1 2 5) ∧ decode 0xE19E = .instr (.skp 1) ∧ decode 0xFE65 = .instr (.load 14) ∧
  decode 0xFFFF = .unsupported 0xFFFF ∧ decode 0x0123 = .unsupported 0x0123

/-- Every well-formed instruction is what its own word decodes to (30_encoding.md sections 1 and 3). -/
def Obligations.DecodeEncodeRoundTrip : Prop :=
  ∀ i : Instr, i.wellFormed = true → decode (encode i) = .instr i

/-- What a legal word decodes to is well formed and encodes to that word again, with a 0 in the nibble that groups 5 and 9
ignore (30_encoding.md section 4; decision D6, log entry 13). -/
def Obligations.DecodedWordReencodes : Prop :=
  ∀ (w : Word) (i : Instr), decode w = .instr i →
    i.wellFormed = true ∧
    encode i = if Fields.op w = 5 ∨ Fields.op w = 9 then w &&& 0xFFF0 else w

/-- The illegal words are exactly those of the table of 30_encoding.md section 4, and the decoder answers each with the
word itself. -/
def Obligations.IllegalWordsExactly : Prop :=
  ∀ w w' : Word, decode w = .unsupported w' ↔
    w' = w ∧
    ((Fields.op w = 0 ∧ w ≠ 0x00E0 ∧ w ≠ 0x00EE) ∨
     (Fields.op w = 8 ∧ (8 ≤ (Fields.n w).toNat ∧ Fields.n w ≠ 0xE)) ∨
     (Fields.op w = 0xE ∧ Fields.kk w ≠ 0x9E ∧ Fields.kk w ≠ 0xA1) ∨
     (Fields.op w = 0xF ∧ Fields.kk w ∉ ([0x07, 0x0A, 0x15, 0x18, 0x1E, 0x29, 0x33, 0x55, 0x65] : List Byte)))

/-! ### The step -/

/-- When the host's next move is a step and the word at pc decodes, that step is `exec` of the decoded instruction, at the
state whose agenda has lost that move (40_cycle.md sections 1 and 2; the agenda is the model's, log entry 5). -/
def Obligations.StepRunsDecodedInstruction : Prop :=
  ∀ (s : State) (w : Word) (i : Instr), s.status = .running → fetchWord s = .ok w → decode w = .instr i →
    (s.agenda = [] → step s = exec i s) ∧
    (∀ rest, s.agenda = .tick :: rest → step s = exec i (s.setAgenda rest))

/-- The fetch reads the two bytes at pc, high byte first, and decodes them; it faults with `pc + 1` when that is beyond memory
(40_cycle.md section 2; the fault and its address are decision D1 and 90_conflicts.md C11, log entry 19). A word that does
not decode ends the step in a next state with the error in `report`, the model's choice of form (log entry 2). -/
def Obligations.FetchReadsBigEndianOrFaults : Prop :=
  ∀ s : State,
    (s.pc.toNat + 1 ≤ 4095 →
      ∃ w, fetchWord s = .ok w ∧ w.toNat = (s.byte s.pc.toNat).toNat * 256 + (s.byte (s.pc.toNat + 1)).toNat ∧
        tick s = (match decode w with
          | .instr i => exec i s
          | .unsupported w' => .next { s with report := some (.unsupportedInstruction w') })) ∧
    (4095 < s.pc.toNat + 1 →
      fetchWord s = .error (.memoryBounds (s.pc.toNat + 1)) ∧
      tick s = .fault (.memoryBounds (s.pc.toNat + 1)))

/-- An illegal word ends the step with the error that carries it, and the state is the one before the step
(60_exceptions.md section 1; log entry 2). -/
def Obligations.IllegalWordReportsError : Prop :=
  ∀ (s : State) (w w' : Word), s.status = .running → s.agenda = [] → fetchWord s = .ok w →
    decode w = .unsupported w' →
    step s = .next { s with report := some (.unsupportedInstruction w) } ∧
    w.toNat = (s.byte s.pc.toNat).toNat * 256 + (s.byte (s.pc.toNat + 1)).toNat

/-- A timer event or a key write that comes next is performed, and a faulted machine makes no move of any kind
(60_exceptions.md sections 2, 8 and 9; log entries 3 and 5). -/
def Obligations.HostMovesAreStepsOfTheMachine : Prop :=
  (∀ (s : State) (rest : List HostMove), s.status = .running → s.agenda = .timerTick :: rest →
    step s = .next (timerTick (s.setAgenda rest))) ∧
  (∀ (s : State) (k : Fin 16) (b : Bool) (rest : List HostMove), s.status = .running →
    s.agenda = .keyWrite k b :: rest → step s = .next (keyWrite k b (s.setAgenda rest))) ∧
  (∀ s : State, s.status = .faulted → step s = .fault .notRunning)

/-- One timer event takes 1 off each nonzero timer, never below 0, and changes nothing else (60_exceptions.md section 8;
when it comes is the host's, decision D11, log entry 5). -/
def Obligations.TimerEventCountsDown : Prop :=
  ∀ s : State, (timerTick s).dt.toNat = s.dt.toNat - 1 ∧ (timerTick s).st.toNat = s.st.toNat - 1 ∧
    (timerTick s).pc = s.pc ∧ (timerTick s).report = s.report ∧
    Keeps s (timerTick s) noReg nowhere [.delay, .sound]

/-- A key write sets its own flag and nothing else (60_exceptions.md section 9). -/
def Obligations.KeyWriteSetsOneFlag : Prop :=
  ∀ (s : State) (k j : Fin 16) (b : Bool),
    (keyWrite k b s).key[j.val] = (if j = k then b else s.key[j.val]) ∧
    { keyWrite k b s with key := s.key } = s

/-! ### Control transfer (41_flow.md) -/

/-- RET pops into pc, and a popped 4095 or more makes the next fetch fault (decision D1, 90_conflicts.md C11, log entry 19); where the invariant
holds the popped address is 2 to 4096; on an empty stack the step ends in StackUnderflow with the state as it was (41_flow.md
section 2), answered as a next state with the error in `report`, the model's choice of form (log entry 2). -/
def Obligations.RetPopsIntoPc : Prop :=
  (∀ (s : State) (l : List Word) (a : Word), s.stk = l ++ [a] →
    (∃ t, exec .ret s = .next t ∧ t.pc = a ∧ t.stk = l ∧ t.report = none ∧ Keeps s t noReg nowhere [.stack] ∧
      (4095 ≤ a.toNat → tick t = .fault (.memoryBounds (a.toNat + 1)))) ∧
    (Inv s → 2 ≤ a.toNat ∧ a.toNat ≤ 4096)) ∧
  (∀ s : State, s.stk = [] → exec .ret s = .next { s with report := some .stackUnderflow })

/-- JP, to any target (41_flow.md section 2). The next fetch from 0xFFF faults (40_cycle.md section 2); the fault and its
address 0x1000 are decision D1 and 90_conflicts.md C11, log entry 19. -/
def Obligations.JpSetsPc : Prop :=
  ∀ (nnn : Addr12) (s : State), ∃ t, exec (.jp nnn) s = .next t ∧ t.pc.toNat = nnn.toNat ∧ t.report = none ∧
    Keeps s t noReg nowhere [] ∧ (nnn = 0xFFF → tick t = .fault (.memoryBounds 0x1000))

/-- CALL pushes `pc + 2` and jumps; with 16 entries the step ends in StackOverflow with the state as it was (41_flow.md section
2), answered as a next state with the error in `report`, the model's choice of form (log entry 2). -/
def Obligations.CallPushesReturnAddress : Prop :=
  (∀ (nnn : Addr12) (s : State), s.stk.length < 16 →
    ∃ t, exec (.call nnn) s = .next t ∧ t.pc.toNat = nnn.toNat ∧
      (∃ a, t.stk = s.stk ++ [a] ∧ a.toNat = (s.pc.toNat + 2) % 65536) ∧ t.report = none ∧
      Keeps s t noReg nowhere [.stack]) ∧
  (∀ (nnn : Addr12) (s : State), s.stk.length = 16 →
    exec (.call nnn) s = .next { s with report := some .stackOverflow })

/-- JP_OFF: the target is the register plus the whole 12-bit offset, not reduced (41_flow.md section 3; decision D17, log
entry 17). -/
def Obligations.JpOffAddsRegister : Prop :=
  ∀ (x : RegIdx) (nnn : Addr12) (s : State), ∃ t, exec (.jpOff x nnn) s = .next t ∧
    t.pc.toNat = (if s.chip48Jump then s.reg x else s.reg 0).toNat + nnn.toNat ∧ t.report = none ∧
    Keeps s t noReg nowhere []

/-- R125, R126: the immediate skips advance by 4 when their condition holds, else by 2. -/
def Obligations.ImmediateSkipsAdvance : Prop :=
  ∀ (x : RegIdx) (kk : Byte) (s : State),
    (∃ t, exec (.seImm x kk) s = .next t ∧ t.pc = (if s.reg x = kk then s.pc + 4 else s.pc + 2) ∧ t.report = none ∧
      Keeps s t noReg nowhere []) ∧
    (∃ t, exec (.sneImm x kk) s = .next t ∧ t.pc = (if s.reg x = kk then s.pc + 2 else s.pc + 4) ∧ t.report = none ∧
      Keeps s t noReg nowhere [])

/-- The register skips, whatever the low nibble of their word (41_flow.md section 4; decision D6, log entry 13). -/
def Obligations.RegisterSkipsAdvance : Prop :=
  ∀ (x y : RegIdx) (n : Nibble) (s : State),
    decode (encXYN 0x5 x y n) = .instr (.seReg x y) ∧ decode (encXYN 0x9 x y n) = .instr (.sneReg x y) ∧
    (∃ t, exec (.seReg x y) s = .next t ∧ t.pc = (if s.reg x = s.reg y then s.pc + 4 else s.pc + 2) ∧
      t.report = none ∧ Keeps s t noReg nowhere []) ∧
    (∃ t, exec (.sneReg x y) s = .next t ∧ t.pc = (if s.reg x = s.reg y then s.pc + 2 else s.pc + 4) ∧
      t.report = none ∧ Keeps s t noReg nowhere [])

/-! ### Register file (42_alu.md) -/

/-- R142, R143: LD_IMM assigns; ADD_IMM adds modulo 256 and sets no flag. -/
def Obligations.ImmediateLoadAndAdd : Prop :=
  ∀ (x : RegIdx) (kk : Byte) (s : State),
    (∃ t, exec (.ldImm x kk) s = .next t ∧ t.reg x = kk ∧ t.pc = s.pc + 2 ∧ t.report = none ∧
      Keeps s t (· = x) nowhere []) ∧
    (∃ t, exec (.addImm x kk) s = .next t ∧ (t.reg x).toNat = ((s.reg x).toNat + kk.toNat) % 256 ∧
      t.pc = s.pc + 2 ∧ t.report = none ∧ Keeps s t (· = x) nowhere [])

/-- R144 to R147: copy, OR, AND, XOR, bit by bit, with no flag. -/
def Obligations.CopyAndBitwiseLogic : Prop :=
  ∀ (x y : RegIdx) (s : State),
    (∃ t, exec (.ldReg x y) s = .next t ∧ t.reg x = s.reg y ∧ t.pc = s.pc + 2 ∧ t.report = none ∧
      Keeps s t (· = x) nowhere []) ∧
    (∃ t, exec (.orReg x y) s = .next t ∧
      (∀ k, (t.reg x).getLsbD k = ((s.reg x).getLsbD k || (s.reg y).getLsbD k)) ∧ t.pc = s.pc + 2 ∧ t.report = none ∧
      Keeps s t (· = x) nowhere []) ∧
    (∃ t, exec (.andReg x y) s = .next t ∧
      (∀ k, (t.reg x).getLsbD k = ((s.reg x).getLsbD k && (s.reg y).getLsbD k)) ∧ t.pc = s.pc + 2 ∧ t.report = none ∧
      Keeps s t (· = x) nowhere []) ∧
    (∃ t, exec (.xorReg x y) s = .next t ∧
      (∀ k, (t.reg x).getLsbD k = ((s.reg x).getLsbD k != (s.reg y).getLsbD k)) ∧ t.pc = s.pc + 2 ∧ t.report = none ∧
      Keeps s t (· = x) nowhere [])

/-- ADD_REG: the sum modulo 256 in `V[x]`, the carry in `V[15]` unless `x` is 15 (42_alu.md section 4; with register 15 an
operand, decision D4, log entry 11). -/
def Obligations.AddRegSumAndCarry : Prop :=
  ∀ (x y : RegIdx) (s : State), ∃ t, exec (.addReg x y) s = .next t ∧
    (t.reg x).toNat = ((s.reg x).toNat + (s.reg y).toNat) % 256 ∧
    (x ≠ 15 → (t.reg 15).toNat = if (s.reg x).toNat + (s.reg y).toNat > 255 then 1 else 0) ∧
    t.pc = s.pc + 2 ∧ t.report = none ∧ Keeps s t (fun r => r = x ∨ r = 15) nowhere []

/-- SUB and SUBN: the difference modulo 256 in `V[x]`; in `V[15]`, unless `x` is 15, whether the minuend is strictly
greater (42_alu.md section 4; 90_conflicts.md C2, log entry 12; decision D4, log entry 11). -/
def Obligations.SubtractDifferenceAndFlag : Prop :=
  ∀ (x y : RegIdx) (s : State),
    (∃ t, exec (.sub x y) s = .next t ∧
      (t.reg x).toNat = (if (s.reg y).toNat ≤ (s.reg x).toNat then (s.reg x).toNat - (s.reg y).toNat
        else 256 + (s.reg x).toNat - (s.reg y).toNat) ∧
      (x ≠ 15 → (t.reg 15).toNat = if (s.reg x).toNat > (s.reg y).toNat then 1 else 0) ∧
      t.pc = s.pc + 2 ∧ t.report = none ∧ Keeps s t (fun r => r = x ∨ r = 15) nowhere []) ∧
    (∃ t, exec (.subn x y) s = .next t ∧
      (t.reg x).toNat = (if (s.reg x).toNat ≤ (s.reg y).toNat then (s.reg y).toNat - (s.reg x).toNat
        else 256 + (s.reg y).toNat - (s.reg x).toNat) ∧
      (x ≠ 15 → (t.reg 15).toNat = if (s.reg y).toNat > (s.reg x).toNat then 1 else 0) ∧
      t.pc = s.pc + 2 ∧ t.report = none ∧ Keeps s t (fun r => r = x ∨ r = 15) nowhere [])

/-- SHR and SHL in both modes: the source is `V[x]` when LEGACY_SHIFT is true, else `V[y]`; both put its LOW bit in
`V[15]` unless `x` is 15 (42_alu.md section 5; 90_conflicts.md C1; decision D4, log entry 11). -/
def Obligations.ShiftsByOne : Prop :=
  ∀ (x y : RegIdx) (s : State) (v : Nat), v = (if s.legacyShift then s.reg x else s.reg y).toNat →
    (∃ t, exec (.shr x y) s = .next t ∧ (t.reg x).toNat = v / 2 ∧ (x ≠ 15 → (t.reg 15).toNat = v % 2) ∧
      t.pc = s.pc + 2 ∧ t.report = none ∧ Keeps s t (fun r => r = x ∨ r = 15) nowhere []) ∧
    (∃ t, exec (.shl x y) s = .next t ∧ (t.reg x).toNat = v * 2 % 256 ∧ (x ≠ 15 → (t.reg 15).toNat = v % 2) ∧
      t.pc = s.pc + 2 ∧ t.report = none ∧ Keeps s t (fun r => r = x ∨ r = 15) nowhere [])

/-- RND: the next free byte under the mask; whatever that byte is, no bit outside the mask is set, and the next RND reads
the next byte (42_alu.md section 6; decision D10, log entry 4). -/
def Obligations.RndStoresMaskedDraw : Prop :=
  ∀ (x : RegIdx) (kk : Byte) (s : State), ∃ t, exec (.rnd x kk) s = .next t ∧
    t.reg x = (Config.randomByte s.draws &&& kk) ∧ t.reg x &&& ~~~kk = 0 ∧ t.draws = s.draws + 1 ∧
    t.pc = s.pc + 2 ∧ t.report = none ∧ Keeps s t (· = x) nowhere [.draws]

/-! ### Index register and memory (43_index_memory.md) -/

/-- R170, R172: LD_I assigns the address; LD_F the address of the glyph of the low nibble. -/
def Obligations.IndexLoads : Prop :=
  (∀ (nnn : Addr12) (s : State), ∃ t, exec (.ldI nnn) s = .next t ∧ t.i.toNat = nnn.toNat ∧ t.pc = s.pc + 2 ∧
    t.report = none ∧ Keeps s t noReg nowhere [.index]) ∧
  (∀ (x : RegIdx) (s : State), ∃ t, exec (.ldF x) s = .next t ∧ t.i.toNat = (s.reg x).toNat % 16 * 5 ∧
    t.pc = s.pc + 2 ∧ t.report = none ∧ Keeps s t noReg nowhere [.index])

/-- ADD_I: the sum modulo 65536 in `I`, and in `V[15]` whether the true sum exceeds 0xFFF (43_index_memory.md section 2;
decisions D4 and D8, log entries 11 and 15). -/
def Obligations.AddIndexAndFlag : Prop :=
  ∀ (x : RegIdx) (s : State), ∃ t, exec (.addI x) s = .next t ∧
    t.i.toNat = (s.i.toNat + (s.reg x).toNat) % 65536 ∧
    (t.reg 15).toNat = (if s.i.toNat + (s.reg x).toNat > 0xFFF then 1 else 0) ∧
    t.pc = s.pc + 2 ∧ t.report = none ∧ Keeps s t (· = 15) nowhere [.index]

/-- BCD: the three digits at `I`, `I + 1`, `I + 2`, and no other byte, where they fit below 4096 (43_index_memory.md section
3; decision D7, log entry 14). -/
def Obligations.BcdStoresDigits : Prop :=
  ∀ (x : RegIdx) (s : State), s.i.toNat + 2 ≤ 4095 → ∃ t, exec (.bcd x) s = .next t ∧
    (t.byte s.i.toNat).toNat = (s.reg x).toNat / 100 ∧
    (t.byte (s.i.toNat + 1)).toNat = (s.reg x).toNat / 10 % 10 ∧
    (t.byte (s.i.toNat + 2)).toNat = (s.reg x).toNat % 10 ∧
    t.pc = s.pc + 2 ∧ t.report = none ∧ Keeps s t noReg (fun a => effAddr s 0 ≤ a ∧ a ≤ effAddr s 2) []

/-- STORE: `V[0]` to `V[x]` at `I` to `I + x`, and no other byte, where they fit below 4096 (43_index_memory.md section 3;
decision D7, log entry 14). -/
def Obligations.StoreWritesRegisterBlock : Prop :=
  ∀ (x : RegIdx) (s : State), s.i.toNat + x.val ≤ 4095 → ∃ t, exec (.store x) s = .next t ∧
    (∀ r : RegIdx, r ≤ x → t.byte (s.i.toNat + r.val) = s.reg r) ∧
    t.pc = s.pc + 2 ∧ t.report = none ∧ Keeps s t noReg (fun a => effAddr s 0 ≤ a ∧ a ≤ effAddr s x.val) []

/-- LOAD: `V[0]` to `V[x]` from `I` to `I + x`, and no other register, where they fit below 4096 (43_index_memory.md section
3; decision D7, log entry 14). -/
def Obligations.LoadReadsRegisterBlock : Prop :=
  ∀ (x : RegIdx) (s : State), s.i.toNat + x.val ≤ 4095 → ∃ t, exec (.load x) s = .next t ∧
    (∀ r : RegIdx, r ≤ x → t.reg r = s.byte (s.i.toNat + r.val)) ∧
    t.pc = s.pc + 2 ∧ t.report = none ∧ Keeps s t (· ≤ x) nowhere []

/-- A data access that reaches beyond 4095 faults with the first address that does (43_index_memory.md section 1; decision
D1, log entry 19). -/
def Obligations.DataAccessBeyondMemoryFaults : Prop :=
  ∀ (x y : RegIdx) (n : Nibble) (s : State),
    (4095 < s.i.toNat + 2 → exec (.bcd x) s = .fault (.memoryBounds (max s.i.toNat 4096))) ∧
    (4095 < s.i.toNat + x.val → exec (.store x) s = .fault (.memoryBounds (max s.i.toNat 4096)) ∧
      exec (.load x) s = .fault (.memoryBounds (max s.i.toNat 4096))) ∧
    (0 < n.toNat → 4095 < s.i.toNat + n.toNat - 1 →
      exec (.drw x y n) s = .fault (.memoryBounds (max s.i.toNat 4096)))

/-! ### Framebuffer (44_display.md) -/

/-- R192: CLS turns every pixel off and touches no register. -/
def Obligations.ClsTurnsEveryPixelOff : Prop :=
  ∀ s : State, ∃ t, exec .cls s = .next t ∧ (∀ cx cy, t.pixel cx cy = false) ∧ t.pc = s.pc + 2 ∧ t.report = none ∧
    Keeps s t noReg nowhere [.display]

/-- DRW: exactly the pixels the sprite covers are toggled, and `V[15]` is 1 when one of them was on, else 0
(44_display.md section 3; decision D4, log entry 11). -/
def Obligations.DrwTogglesCoveredPixels : Prop :=
  ∀ (x y : RegIdx) (n : Nibble) (s : State), n.toNat = 0 ∨ s.i.toNat + n.toNat - 1 ≤ 4095 →
    ∃ t, exec (.drw x y n) s = .next t ∧
      (∀ cx cy, SpriteCovers s x y n cx cy → t.pixel cx cy = !s.pixel cx cy) ∧
      (∀ cx cy, ¬SpriteCovers s x y n cx cy → t.pixel cx cy = s.pixel cx cy) ∧
      ((∃ cx cy, s.pixel cx cy = true ∧ t.pixel cx cy = false) → t.reg 15 = 1) ∧
      ((∀ cx cy, s.pixel cx cy = true → t.pixel cx cy = true) → t.reg 15 = 0) ∧
      t.pc = s.pc + 2 ∧ t.report = none ∧ Keeps s t (· = 15) nowhere [.display]

/-- Drawing the same sprite twice at the same origin restores the framebuffer, and the second draw reports a collision when
and only when the first turned a pixel on (44_display.md section 3). The origin is the same unless a register it is read
from is 15 and the first draw's flag moves it. -/
def Obligations.DrawingTwiceRestoresDisplay : Prop :=
  ∀ (x y : RegIdx) (n : Nibble) (s t : State), exec (.drw x y n) s = .next t →
    (t.reg x).toNat % 64 = (s.reg x).toNat % 64 → (t.reg y).toNat % 32 = (s.reg y).toNat % 32 →
    ∃ u, exec (.drw x y n) t = .next u ∧ (∀ cx cy, u.pixel cx cy = s.pixel cx cy) ∧
      ((∃ cx cy, s.pixel cx cy = false ∧ t.pixel cx cy = true) → u.reg 15 = 1) ∧
      ((∀ cx cy, t.pixel cx cy = true → s.pixel cx cy = true) → u.reg 15 = 0)

/-- Origins congruent modulo 64 and modulo 32 draw the same picture and report the same flag (44_display.md section 3). -/
def Obligations.CongruentOriginsDrawAlike : Prop :=
  ∀ (x y x' y' : RegIdx) (n : Nibble) (s t : State), exec (.drw x y n) s = .next t →
    (s.reg x').toNat % 64 = (s.reg x).toNat % 64 → (s.reg y').toNat % 32 = (s.reg y).toNat % 32 →
    ∃ u, exec (.drw x' y' n) s = .next u ∧ (∀ cx cy, u.pixel cx cy = t.pixel cx cy) ∧ u.reg 15 = t.reg 15

/-! ### Keypad and timers (45_keypad_timers.md) -/

/-- SKP and SKNP on a key index of at most 15 (45_keypad_timers.md section 2). -/
def Obligations.KeySkipsAdvance : Prop :=
  ∀ (x : RegIdx) (s : State) (k : Fin 16), (s.reg x).toNat = k.val →
    (∃ t, exec (.skp x) s = .next t ∧ t.pc = (if s.key[k.val] then s.pc + 4 else s.pc + 2) ∧ t.report = none ∧
      Keeps s t noReg nowhere []) ∧
    (∃ t, exec (.sknp x) s = .next t ∧ t.pc = (if s.key[k.val] then s.pc + 2 else s.pc + 4) ∧ t.report = none ∧
      Keeps s t noReg nowhere [])

/-- WAITKEY on a key index of at most 15: while that key is up the step is `Ok` and pc stays, once it is down pc advances
by 2; nothing else is written (45_keypad_timers.md section 4). -/
def Obligations.WaitkeyHoldsPcWhileKeyUp : Prop :=
  ∀ (x : RegIdx) (s : State) (k : Fin 16), (s.reg x).toNat = k.val →
    ∃ t, exec (.waitkey x) s = .next t ∧ t.pc = (if s.key[k.val] then s.pc + 2 else s.pc) ∧ t.report = none ∧
      Keeps s t noReg nowhere []

/-- A key index above 15 faults (45_keypad_timers.md section 1; decision D9, log entry 18). -/
def Obligations.KeyIndexAbove15Faults : Prop :=
  ∀ (x : RegIdx) (s : State), 15 < (s.reg x).toNat →
    exec (.skp x) s = .fault (.keyIndex (s.reg x)) ∧ exec (.sknp x) s = .fault (.keyIndex (s.reg x)) ∧
    exec (.waitkey x) s = .fault (.keyIndex (s.reg x))

/-- R204 and the other two timer transfers (45_keypad_timers.md section 3); a delay timer set to 0 stays 0. -/
def Obligations.TimerTransfers : Prop :=
  ∀ (x : RegIdx) (s : State),
    (∃ t, exec (.ldVxDt x) s = .next t ∧ t.reg x = s.dt ∧ t.pc = s.pc + 2 ∧ t.report = none ∧
      Keeps s t (· = x) nowhere []) ∧
    (∃ t, exec (.ldDtVx x) s = .next t ∧ t.dt = s.reg x ∧ t.pc = s.pc + 2 ∧ t.report = none ∧
      Keeps s t noReg nowhere [.delay] ∧ (s.reg x = 0 → (timerTick t).dt = 0)) ∧
    (∃ t, exec (.ldStVx x) s = .next t ∧ t.st = s.reg x ∧ t.pc = s.pc + 2 ∧ t.report = none ∧
      Keeps s t noReg nowhere [.sound])

/-! ### The call stack -/

/-- R35: up to 16 pushes keep their order, as many pops return them in reverse, a push on 16 entries overflows and a pop on
none underflows. -/
def Obligations.StackIsBoundedLifo : Prop :=
  (∀ vs : List Word, vs.length ≤ 16 → pushAll [] vs = .ok vs ∧ popAll vs.length vs = .ok vs.reverse) ∧
  (∀ (stk : List Word) (v : Word), stk.length < 16 → push v stk = .ok (stk ++ [v]) ∧ pop (stk ++ [v]) = .ok (v, stk)) ∧
  (∀ (stk : List Word) (v : Word), stk.length = 16 → push v stk = .error .stackOverflow) ∧
  pop [] = .error .stackUnderflow

/-- A CALL followed by a RET comes back to the word after the CALL with the stack as it was (41_flow.md section 2). -/
def Obligations.CallThenRetReturns : Prop :=
  ∀ (nnn : Addr12) (s : State), s.stk.length < 16 →
    ∃ t u, exec (.call nnn) s = .next t ∧ exec .ret t = .next u ∧ u.pc = s.pc + 2 ∧ u.stk = s.stk ∧
      u.report = none ∧ Keeps s u noReg nowhere []

/-! ### Invariants -/

/-- Every move keeps the invariant: canonical memory, at most 16 return addresses from 2 to 4096, pc at most 0x10FE, the
machine running (10_state.md sections 2 and 5). -/
def Obligations.StepKeepsInvariant : Prop :=
  ∀ s t : State, Inv s → step s = .next t → Inv t

/-- The invariant holds right after reset. -/
def Obligations.ResetMeetsInvariant : Prop := Inv State.reset

/-- The invariant holds after every boot (70_reset_and_hazards.md section 2). -/
def Obligations.BootMeetsInvariant : Prop :=
  ∀ (legacy chip48 : Bool) (font : Vector Byte 80) (base : Fin 4096) (image : List Byte) (s : State),
    boot legacy chip48 font base image = some s → Inv s

/-- No move changes either configuration flag (10_state.md section 4). -/
def Obligations.StepKeepsConfigurationFlags : Prop :=
  ∀ s t : State, step s = .next t → t.legacyShift = s.legacyShift ∧ t.chip48Jump = s.chip48Jump

/-! ### Reset and boot -/

/-- The model's state right after reset. The zeros of registers, stack, display and keys are the spec's decision D3 (log entry
6). That every byte of memory is 0 is decision D15 (log entry 9) outside the font and the image; at their addresses it is the
model's choice that State.reset is the machine before they are loaded (log entry 8; R261 has zeros there until then). The base
0x200 and the two flags are the model's choice (log entries 7 and 1), and so are the starting values of its own fields
`report`, `draws` and `agenda` (log entries 2, 4 and 5). -/
def Obligations.ResetValues : Prop :=
  (∀ r, State.reset.reg r = 0) ∧ State.reset.i = 0 ∧ State.reset.dt = 0 ∧ State.reset.st = 0 ∧
  State.reset.pc = 0x200 ∧ State.reset.stk = [] ∧ (∀ a, State.reset.byte a = 0) ∧
  (∀ cx cy, State.reset.pixel cx cy = false) ∧ State.reset.key = Vector.replicate 16 false ∧
  State.reset.status = .running ∧ State.reset.legacyShift = false ∧ State.reset.chip48Jump = false ∧
  State.reset.report = none ∧ State.reset.draws = 0 ∧ State.reset.agenda = []

/-- Boot places the image over the font over zeros, sets pc to the base and the flags as given, and leaves the rest at its
reset value; an image that does not fit is refused (70_reset_and_hazards.md sections 1 and 2; decisions D3 and D15, log
entries 6 and 9). -/
def Obligations.BootPlacesFontAndImage : Prop :=
  ∀ (legacy chip48 : Bool) (font : Vector Byte 80) (base : Fin 4096) (image : List Byte),
    (base.val + image.length ≤ 4096 →
      ∃ s, boot legacy chip48 font base image = some s ∧ s.pc.toNat = base.val ∧
        (∀ (k : Nat) (h : k < image.length), s.byte (base.val + k) = image[k]) ∧
        (∀ (a : Nat) (h : a < 80), a < base.val ∨ base.val + image.length ≤ a → s.byte a = font[a]) ∧
        (∀ a, 80 ≤ a → a < base.val ∨ base.val + image.length ≤ a → s.byte a = 0) ∧
        s.legacyShift = legacy ∧ s.chip48Jump = chip48 ∧ (∀ r, s.reg r = 0) ∧ s.i = 0 ∧ s.dt = 0 ∧ s.st = 0 ∧
        s.stk = [] ∧ (∀ cx cy, s.pixel cx cy = false) ∧ (∀ k : Fin 16, s.key[k.val] = false) ∧ s.status = .running) ∧
    (4096 < base.val + image.length → boot legacy chip48 font base image = none)

/-! ### Whole-machine rules, over all instructions -/

/-- No instruction writes a register that the table of 10_state.md section 1 does not let it write. -/
def Obligations.RegistersWrittenAsTabulated : Prop :=
  ∀ (i : Instr) (s t : State) (r : RegIdx), exec i s = .next t → writesReg i r = false → t.reg r = s.reg r

/-- Which instruction writes which space (10_state.md section 6): memory by BCD and STORE only, the framebuffer by CLS and
DRW only, the stack by CALL and RET only, `I` by LD_I, ADD_I and LD_F only, each timer by its own transfer only, the keys,
the status and the agenda by none. -/
def Obligations.SpacesWrittenAsTabulated : Prop :=
  ∀ (i : Instr) (s t : State), exec i s = .next t →
    ((∀ x, i ≠ .bcd x ∧ i ≠ .store x) → t.mem = s.mem) ∧
    ((i ≠ .cls ∧ ∀ x y n, i ≠ .drw x y n) → t.fb = s.fb) ∧
    ((i ≠ .ret ∧ ∀ nnn, i ≠ .call nnn) → t.stk = s.stk) ∧
    ((∀ nnn x, i ≠ .ldI nnn ∧ i ≠ .addI x ∧ i ≠ .ldF x) → t.i = s.i) ∧
    ((∀ x, i ≠ .ldDtVx x) → t.dt = s.dt) ∧ ((∀ x, i ≠ .ldStVx x) → t.st = s.st) ∧
    t.key = s.key ∧ t.status = s.status ∧ t.agenda = s.agenda

/-- pc after a step that ends `Ok` has moved by an increment the table of 40_cycle.md section 2 gives the instruction,
unless it is one of the four that set pc; after an error, which is a next state with `report` set (log entry 2), it has not
moved. -/
def Obligations.PcMovesAsTabulated : Prop :=
  ∀ (i : Instr) (s t : State), exec i s = .next t →
    (t.report = none → increments i ≠ [] → ∃ inc ∈ increments i, t.pc = s.pc + inc) ∧
    (t.report ≠ none → t.pc = s.pc)

/-- The errors of an executing instruction are RET's on an empty stack and CALL's on a full one, and each leaves the state
as it was but for `report` (60_exceptions.md section 1; log entry 2). -/
def Obligations.ErrorsOnlyFromCallAndRet : Prop :=
  ∀ (i : Instr) (s t : State) (e : StepError), exec i s = .next t → t.report = some e →
    t = { s with report := some e } ∧
    ((i = .ret ∧ s.stk = [] ∧ e = .stackUnderflow) ∨
      (∃ nnn, i = .call nnn ∧ 16 ≤ s.stk.length ∧ e = .stackOverflow))

/-- Every instruction answers a next state unless it accesses memory beyond 4095 or a key beyond 15; none is refused
(60_exceptions.md section 2; decisions D1 and D9, log entries 18 and 19). -/
def Obligations.FaultsOnlyFromBoundsAndKeys : Prop :=
  ∀ (i : Instr) (s : State),
    (∃ t, exec i s = .next t) ∨
    (∃ a, exec i s = .fault (.memoryBounds a) ∧ 4095 < a ∧
      ∃ x y n, i = .bcd x ∨ i = .store x ∨ i = .load x ∨ i = .drw x y n) ∨
    (∃ v, exec i s = .fault (.keyIndex v) ∧ 15 < v.toNat ∧ ∃ x, i = .skp x ∨ i = .sknp x ∨ i = .waitkey x)

/-- A step that ends in an error leaves the state as it was but for what it tells the host, and asked again ends in the same
error (40_cycle.md sections 1 and 3). -/
def Obligations.FailingStepChangesNothingAndRepeats : Prop :=
  ∀ (s t : State) (e : StepError), s.agenda = [] → step s = .next t → t.report = some e →
    t = { s with report := some e } ∧ step t = .next t

/-- No move depends on what an earlier step told the host (10_state.md section 4: the error is not stored; log entry 2). -/
def Obligations.StepIgnoresReport : Prop :=
  ∀ (s : State) (r : Option StepError),
    mapNext (·.setReport none) (step (s.setReport r)) = mapNext (·.setReport none) (step s)

/-- The two flags change nothing but JP_OFF, SHR and SHL (00_scope.md section 3). -/
def Obligations.FlagsMatterToThreeInstructions : Prop :=
  ∀ (i : Instr) (s : State) (b c : Bool),
    (∀ x nnn, i ≠ .jpOff x nnn) → (∀ x y, i ≠ .shr x y ∧ i ≠ .shl x y) →
    exec i { s with legacyShift := b, chip48Jump := c } =
      mapNext (fun t => { t with legacyShift := b, chip48Jump := c }) (exec i s)

/-- No instruction reads the sound timer (10_state.md section 4). -/
def Obligations.NoInstructionReadsSoundTimer : Prop :=
  ∀ (i : Instr) (s : State) (b : Byte), (∀ x, i ≠ .ldStVx x) →
    exec i (s.setSt b) = mapNext (·.setSt b) (exec i s)

/-- A program learns about the framebuffer through DRW alone (10_state.md section 6, 44_display.md section 3). -/
def Obligations.OnlyDrwObservesDisplay : Prop :=
  ∀ (i : Instr) (s : State) (d : Display), (∀ x y n, i ≠ .drw x y n) →
    mapNext (·.setFb d) (exec i (s.setFb d)) = mapNext (·.setFb d) (exec i s)

/-- Bytes that STORE writes are fetched by the very next step (20_memory.md section 7). -/
def Obligations.StoredBytesAreFetchedNext : Prop :=
  ∀ (x r r' : RegIdx) (s t : State), exec (.store x) s = .next t → r' ≤ x → r'.val = r.val + 1 →
    t.pc.toNat = s.i.toNat + r.val → fetchWord t = .ok (assemble (s.reg r) (s.reg r'))

/-- The word of an instruction placed at pc is what the next move runs (40_cycle.md section 2; log entry 8). -/
def Obligations.PlacedInstructionRunsNext : Prop :=
  ∀ (s : State) (i : Instr), i.wellFormed = true → s.pc.toNat + 1 ≤ 4095 →
    step (s.withFetchWord 16 (encode i).toNat) = exec i (s.withFetchWord 16 (encode i).toNat) ∧
    (s.withFetchWord 16 (encode i).toNat).pc = s.pc ∧
    decodeTableWord 16 (encode i).toNat = some i

/-- A move of a running machine makes its status Faulted exactly when it faults, a faulted machine makes no move and stays as
it is, and no move, faulting or not, changes a configuration flag (10_state.md section 4, 60_exceptions.md section 2;
decision D1, log entry 3). -/
def Obligations.StatusBecomesFaultedWhenAMoveFaults : Prop :=
  (∀ s : State, s.status = .running → (AfterFault (advance s) ↔ ∃ k, step s = .fault k)) ∧
  (∀ s t : State, step s = .next t → advance s = t) ∧
  (∀ s : State, s.status = .faulted → step s = .fault .notRunning ∧ advance s = s) ∧
  (∀ s : State, (advance s).legacyShift = s.legacyShift ∧ (advance s).chip48Jump = s.chip48Jump)
end

