-- ==== Sys2Proof/Laws/Display.lean ====
section
/-! SUPPORT. The framebuffer's primitives (44_display.md R190) and one bit of a sprite. -/

namespace Sys2Proof.Machine

@[simp] theorem Display.get_clear (b : Bool) (cx : Fin 64) (cy : Fin 32) : Display.get (Display.clear b) cx cy = b := by
  simp [Display.get, Display.clear]

theorem Display.get_flip (d : Display) (ax cx : Fin 64) (ay cy : Fin 32) :
    Display.get (Display.flip d ax ay) cx cy =
      if cx = ax ∧ cy = ay then !Display.get d cx cy else Display.get d cx cy := by
  unfold Display.flip
  by_cases hy : cy = ay
  · subst hy
    by_cases hx : cx = ax
    · subst hx; simp [Display.get]
    · have h : ax.val ≠ cx.val := fun h => hx (Fin.ext h.symm)
      simp [Display.get, hx, Vector.getElem_set_ne, h]
  · have h : ay.val ≠ cy.val := fun h => hy (Fin.ext h.symm)
    simp [Display.get, hy, Vector.getElem_set_ne, h]

/-- A pixel toggled twice is as it was (R190, R195). -/
theorem Display.get_flip_flip (d : Display) (ax cx : Fin 64) (ay cy : Fin 32) :
    Display.get (Display.flip (Display.flip d ax ay) ax ay) cx cy = Display.get d cx cy := by
  by_cases h : cx = ax ∧ cy = ay <;> simp [Display.get_flip, h]

/-- A 0 bit changes nothing (R193). -/
theorem drawBit_off {b : Byte} {c : Nat} (h : b.getLsbD (7 - c) = false) (ox oy r : Nat) (d : Display × Bool) :
    drawBit ox oy r b d c = d := by
  simp [drawBit, h]

/-- A 1 bit toggles its pixel and remembers whether it was on (R194). -/
theorem drawBit_on {b : Byte} {c : Nat} (h : b.getLsbD (7 - c) = true) (ox oy r : Nat) (d : Display × Bool) :
    drawBit ox oy r b d c =
      (Display.flip d.1 (Fin.ofNat 64 (ox + c)) (Fin.ofNat 32 (oy + r)),
        d.2 || Display.get d.1 (Fin.ofNat 64 (ox + c)) (Fin.ofNat 32 (oy + r))) := by
  simp [drawBit, h]

end Sys2Proof.Machine
end

