-- ==== Sys2Proof/Laws/Encoding.lean ====
section
/-! SUPPORT. What the fields of an encoded word read (30_encoding.md R71, R72), and what the opcode table's masks keep of
it (R76 to R81). -/

namespace Sys2Proof

/-! ### Fields -/

theorem Fields.op_encNNN (op : Nibble) (nnn : Addr12) : Fields.op (encNNN op nnn) = op :=
  BitVec.extractLsb'_append_eq_left

theorem Fields.nnn_encNNN (op : Nibble) (nnn : Addr12) : Fields.nnn (encNNN op nnn) = nnn :=
  BitVec.extractLsb'_append_eq_right

theorem Fields.x_encNNN (op : Nibble) (nnn : Addr12) : Fields.x (encNNN op nnn) = Addr12.fieldX nnn := by
  unfold Fields.x encNNN Addr12.fieldX
  rw [BitVec.extractLsb'_append_eq_of_add_le (by omega)]

theorem Fields.op_encXKK (op : Nibble) (x : RegIdx) (kk : Byte) : Fields.op (encXKK op x kk) = op :=
  BitVec.extractLsb'_append_eq_left

theorem Fields.x_encXKK (op : Nibble) (x : RegIdx) (kk : Byte) : Fields.x (encXKK op x kk) = x := by
  unfold Fields.x encXKK
  rw [BitVec.extractLsb'_append_eq_of_add_le (by omega), BitVec.extractLsb'_append_eq_left]
  exact Fin.ext (Nat.mod_eq_of_lt x.isLt)

theorem Fields.kk_encXKK (op : Nibble) (x : RegIdx) (kk : Byte) : Fields.kk (encXKK op x kk) = kk := by
  unfold Fields.kk encXKK
  rw [BitVec.extractLsb'_append_eq_of_add_le (by omega), BitVec.extractLsb'_append_eq_right]

theorem Fields.op_encXYN (op : Nibble) (x y : RegIdx) (n : Nibble) : Fields.op (encXYN op x y n) = op :=
  BitVec.extractLsb'_append_eq_left

theorem Fields.x_encXYN (op : Nibble) (x y : RegIdx) (n : Nibble) : Fields.x (encXYN op x y n) = x := by
  unfold Fields.x encXYN
  rw [BitVec.extractLsb'_append_eq_of_add_le (by omega), BitVec.extractLsb'_append_eq_left]
  exact Fin.ext (Nat.mod_eq_of_lt x.isLt)

theorem Fields.y_encXYN (op : Nibble) (x y : RegIdx) (n : Nibble) : Fields.y (encXYN op x y n) = y := by
  unfold Fields.y encXYN
  rw [BitVec.extractLsb'_append_eq_of_add_le (by omega), BitVec.extractLsb'_append_eq_of_add_le (by omega),
    BitVec.extractLsb'_append_eq_left]
  exact Fin.ext (Nat.mod_eq_of_lt y.isLt)

theorem Fields.n_encXYN (op : Nibble) (x y : RegIdx) (n : Nibble) : Fields.n (encXYN op x y n) = n := by
  unfold Fields.n encXYN
  rw [BitVec.extractLsb'_append_eq_of_add_le (by omega), BitVec.extractLsb'_append_eq_of_add_le (by omega),
    BitVec.extractLsb'_append_eq_right]

/-! ### Masks -/

/-- Mask F000 keeps the group nibble of format NNN. -/
theorem encNNN_group (op : Nibble) (nnn : Addr12) : encNNN op nnn &&& 0xF000 = op ++ (0 : Addr12) := by
  have h : (0xF000 : Word) = (0xF : Nibble) ++ (0 : Addr12) := by decide
  rw [h, encNNN, BitVec.and_append]
  have h1 : op &&& (0xF : Nibble) = op := by revert op; decide
  rw [h1, show nnn &&& (0 : Addr12) = 0 from BitVec.and_zero]

/-- Mask F0FF keeps the group nibble and the low byte of format XS. -/
theorem encXKK_group_low (op : Nibble) (x : RegIdx) (kk : Byte) :
    encXKK op x kk &&& 0xF0FF = (op ++ ((0 : Nibble) ++ kk) : BitVec (4 + (4 + 8))) := by
  have h : (0xF0FF : Word) = ((0xF : Nibble) ++ ((0 : Nibble) ++ (0xFF : Byte)) : BitVec (4 + (4 + 8))) := by decide
  rw [h, encXKK, BitVec.and_append, BitVec.and_append]
  have h1 : op &&& (0xF : Nibble) = op := by revert op; decide
  rw [h1, show (BitVec.ofNat 4 x.val) &&& (0 : Nibble) = 0 from BitVec.and_zero,
    show kk &&& (0xFF : Byte) = kk from BitVec.and_allOnes]

/-- Mask F000 keeps the group nibble of format XKK. -/
theorem encXKK_group (op : Nibble) (x : RegIdx) (kk : Byte) :
    encXKK op x kk &&& 0xF000 = (op ++ ((0 : Nibble) ++ (0 : Byte)) : BitVec (4 + (4 + 8))) := by
  have h : (0xF000 : Word) = ((0xF : Nibble) ++ ((0 : Nibble) ++ (0 : Byte)) : BitVec (4 + (4 + 8))) := by decide
  rw [h, encXKK, BitVec.and_append, BitVec.and_append]
  have h1 : op &&& (0xF : Nibble) = op := by revert op; decide
  rw [h1, show (BitVec.ofNat 4 x.val) &&& (0 : Nibble) = 0 from BitVec.and_zero,
    show kk &&& (0 : Byte) = 0 from BitVec.and_zero]

/-- Mask F00F keeps the group nibble and the low nibble of formats XYS and XYN. -/
theorem encXYN_group_low (op : Nibble) (x y : RegIdx) (n : Nibble) :
    encXYN op x y n &&& 0xF00F = (op ++ ((0 : Nibble) ++ ((0 : Nibble) ++ n)) : BitVec (4 + (4 + (4 + 4)))) := by
  have h : (0xF00F : Word) =
      ((0xF : Nibble) ++ ((0 : Nibble) ++ ((0 : Nibble) ++ (0xF : Nibble))) : BitVec (4 + (4 + (4 + 4)))) := by decide
  rw [h, encXYN, BitVec.and_append, BitVec.and_append, BitVec.and_append]
  have h1 : op &&& (0xF : Nibble) = op := by revert op; decide
  have h2 : n &&& (0xF : Nibble) = n := by revert n; decide
  rw [h1, h2, show (BitVec.ofNat 4 x.val) &&& (0 : Nibble) = 0 from BitVec.and_zero,
    show (BitVec.ofNat 4 y.val) &&& (0 : Nibble) = 0 from BitVec.and_zero]

/-- Mask F000 keeps the group nibble of formats XY and XYN. -/
theorem encXYN_group (op : Nibble) (x y : RegIdx) (n : Nibble) :
    encXYN op x y n &&& 0xF000 =
      (op ++ ((0 : Nibble) ++ ((0 : Nibble) ++ (0 : Nibble))) : BitVec (4 + (4 + (4 + 4)))) := by
  have h : (0xF000 : Word) =
      ((0xF : Nibble) ++ ((0 : Nibble) ++ ((0 : Nibble) ++ (0 : Nibble))) : BitVec (4 + (4 + (4 + 4)))) := by decide
  rw [h, encXYN, BitVec.and_append, BitVec.and_append, BitVec.and_append]
  have h1 : op &&& (0xF : Nibble) = op := by revert op; decide
  rw [h1, show (BitVec.ofNat 4 x.val) &&& (0 : Nibble) = 0 from BitVec.and_zero,
    show (BitVec.ofNat 4 y.val) &&& (0 : Nibble) = 0 from BitVec.and_zero,
    show n &&& (0 : Nibble) = 0 from BitVec.and_zero]

end Sys2Proof
end

