-- ==== Sys2Proof/Laws/State.lean ====
section
/-! SUPPORT. What each update of Machine/Ops.lean does to each field, and what registers, bytes and pixels read after it. -/

namespace Sys2Proof.Machine

variable (s : State)

/-! ### setV -/

@[simp] theorem State.setV_v (x : RegIdx) (b : Byte) : (s.setV x b).v = s.v.set x.val b := rfl
@[simp] theorem State.setV_i (x : RegIdx) (b : Byte) : (s.setV x b).i = s.i := rfl
@[simp] theorem State.setV_dt (x : RegIdx) (b : Byte) : (s.setV x b).dt = s.dt := rfl
@[simp] theorem State.setV_st (x : RegIdx) (b : Byte) : (s.setV x b).st = s.st := rfl
@[simp] theorem State.setV_pc (x : RegIdx) (b : Byte) : (s.setV x b).pc = s.pc := rfl
@[simp] theorem State.setV_stk (x : RegIdx) (b : Byte) : (s.setV x b).stk = s.stk := rfl
@[simp] theorem State.setV_mem (x : RegIdx) (b : Byte) : (s.setV x b).mem = s.mem := rfl
@[simp] theorem State.setV_fb (x : RegIdx) (b : Byte) : (s.setV x b).fb = s.fb := rfl
@[simp] theorem State.setV_key (x : RegIdx) (b : Byte) : (s.setV x b).key = s.key := rfl
@[simp] theorem State.setV_status (x : RegIdx) (b : Byte) : (s.setV x b).status = s.status := rfl
@[simp] theorem State.setV_legacyShift (x : RegIdx) (b : Byte) : (s.setV x b).legacyShift = s.legacyShift := rfl
@[simp] theorem State.setV_chip48Jump (x : RegIdx) (b : Byte) : (s.setV x b).chip48Jump = s.chip48Jump := rfl
@[simp] theorem State.setV_report (x : RegIdx) (b : Byte) : (s.setV x b).report = s.report := rfl
@[simp] theorem State.setV_draws (x : RegIdx) (b : Byte) : (s.setV x b).draws = s.draws := rfl
@[simp] theorem State.setV_agenda (x : RegIdx) (b : Byte) : (s.setV x b).agenda = s.agenda := rfl
@[simp] theorem State.setV_byte (x : RegIdx) (b : Byte) (a : Nat) : (s.setV x b).byte a = s.byte a := rfl
@[simp] theorem State.setV_pixel (x : RegIdx) (b : Byte) (cx : Fin 64) (cy : Fin 32) : (s.setV x b).pixel cx cy = s.pixel cx cy := rfl

/-! ### setRegs -/

@[simp] theorem State.setRegs_v (v : Vector Byte 16) : (s.setRegs v).v = v := rfl
@[simp] theorem State.setRegs_i (v : Vector Byte 16) : (s.setRegs v).i = s.i := rfl
@[simp] theorem State.setRegs_dt (v : Vector Byte 16) : (s.setRegs v).dt = s.dt := rfl
@[simp] theorem State.setRegs_st (v : Vector Byte 16) : (s.setRegs v).st = s.st := rfl
@[simp] theorem State.setRegs_pc (v : Vector Byte 16) : (s.setRegs v).pc = s.pc := rfl
@[simp] theorem State.setRegs_stk (v : Vector Byte 16) : (s.setRegs v).stk = s.stk := rfl
@[simp] theorem State.setRegs_mem (v : Vector Byte 16) : (s.setRegs v).mem = s.mem := rfl
@[simp] theorem State.setRegs_fb (v : Vector Byte 16) : (s.setRegs v).fb = s.fb := rfl
@[simp] theorem State.setRegs_key (v : Vector Byte 16) : (s.setRegs v).key = s.key := rfl
@[simp] theorem State.setRegs_status (v : Vector Byte 16) : (s.setRegs v).status = s.status := rfl
@[simp] theorem State.setRegs_legacyShift (v : Vector Byte 16) : (s.setRegs v).legacyShift = s.legacyShift := rfl
@[simp] theorem State.setRegs_chip48Jump (v : Vector Byte 16) : (s.setRegs v).chip48Jump = s.chip48Jump := rfl
@[simp] theorem State.setRegs_report (v : Vector Byte 16) : (s.setRegs v).report = s.report := rfl
@[simp] theorem State.setRegs_draws (v : Vector Byte 16) : (s.setRegs v).draws = s.draws := rfl
@[simp] theorem State.setRegs_agenda (v : Vector Byte 16) : (s.setRegs v).agenda = s.agenda := rfl
@[simp] theorem State.setRegs_byte (v : Vector Byte 16) (a : Nat) : (s.setRegs v).byte a = s.byte a := rfl
@[simp] theorem State.setRegs_pixel (v : Vector Byte 16) (cx : Fin 64) (cy : Fin 32) : (s.setRegs v).pixel cx cy = s.pixel cx cy := rfl

/-! ### setI -/

@[simp] theorem State.setI_v (w : Word) : (s.setI w).v = s.v := rfl
@[simp] theorem State.setI_i (w : Word) : (s.setI w).i = w := rfl
@[simp] theorem State.setI_dt (w : Word) : (s.setI w).dt = s.dt := rfl
@[simp] theorem State.setI_st (w : Word) : (s.setI w).st = s.st := rfl
@[simp] theorem State.setI_pc (w : Word) : (s.setI w).pc = s.pc := rfl
@[simp] theorem State.setI_stk (w : Word) : (s.setI w).stk = s.stk := rfl
@[simp] theorem State.setI_mem (w : Word) : (s.setI w).mem = s.mem := rfl
@[simp] theorem State.setI_fb (w : Word) : (s.setI w).fb = s.fb := rfl
@[simp] theorem State.setI_key (w : Word) : (s.setI w).key = s.key := rfl
@[simp] theorem State.setI_status (w : Word) : (s.setI w).status = s.status := rfl
@[simp] theorem State.setI_legacyShift (w : Word) : (s.setI w).legacyShift = s.legacyShift := rfl
@[simp] theorem State.setI_chip48Jump (w : Word) : (s.setI w).chip48Jump = s.chip48Jump := rfl
@[simp] theorem State.setI_report (w : Word) : (s.setI w).report = s.report := rfl
@[simp] theorem State.setI_draws (w : Word) : (s.setI w).draws = s.draws := rfl
@[simp] theorem State.setI_agenda (w : Word) : (s.setI w).agenda = s.agenda := rfl
@[simp] theorem State.setI_reg (w : Word) (y : RegIdx) : (s.setI w).reg y = s.reg y := rfl
@[simp] theorem State.setI_byte (w : Word) (a : Nat) : (s.setI w).byte a = s.byte a := rfl
@[simp] theorem State.setI_pixel (w : Word) (cx : Fin 64) (cy : Fin 32) : (s.setI w).pixel cx cy = s.pixel cx cy := rfl

/-! ### setDt -/

@[simp] theorem State.setDt_v (b : Byte) : (s.setDt b).v = s.v := rfl
@[simp] theorem State.setDt_i (b : Byte) : (s.setDt b).i = s.i := rfl
@[simp] theorem State.setDt_dt (b : Byte) : (s.setDt b).dt = b := rfl
@[simp] theorem State.setDt_st (b : Byte) : (s.setDt b).st = s.st := rfl
@[simp] theorem State.setDt_pc (b : Byte) : (s.setDt b).pc = s.pc := rfl
@[simp] theorem State.setDt_stk (b : Byte) : (s.setDt b).stk = s.stk := rfl
@[simp] theorem State.setDt_mem (b : Byte) : (s.setDt b).mem = s.mem := rfl
@[simp] theorem State.setDt_fb (b : Byte) : (s.setDt b).fb = s.fb := rfl
@[simp] theorem State.setDt_key (b : Byte) : (s.setDt b).key = s.key := rfl
@[simp] theorem State.setDt_status (b : Byte) : (s.setDt b).status = s.status := rfl
@[simp] theorem State.setDt_legacyShift (b : Byte) : (s.setDt b).legacyShift = s.legacyShift := rfl
@[simp] theorem State.setDt_chip48Jump (b : Byte) : (s.setDt b).chip48Jump = s.chip48Jump := rfl
@[simp] theorem State.setDt_report (b : Byte) : (s.setDt b).report = s.report := rfl
@[simp] theorem State.setDt_draws (b : Byte) : (s.setDt b).draws = s.draws := rfl
@[simp] theorem State.setDt_agenda (b : Byte) : (s.setDt b).agenda = s.agenda := rfl
@[simp] theorem State.setDt_reg (b : Byte) (y : RegIdx) : (s.setDt b).reg y = s.reg y := rfl
@[simp] theorem State.setDt_byte (b : Byte) (a : Nat) : (s.setDt b).byte a = s.byte a := rfl
@[simp] theorem State.setDt_pixel (b : Byte) (cx : Fin 64) (cy : Fin 32) : (s.setDt b).pixel cx cy = s.pixel cx cy := rfl

/-! ### setSt -/

@[simp] theorem State.setSt_v (b : Byte) : (s.setSt b).v = s.v := rfl
@[simp] theorem State.setSt_i (b : Byte) : (s.setSt b).i = s.i := rfl
@[simp] theorem State.setSt_dt (b : Byte) : (s.setSt b).dt = s.dt := rfl
@[simp] theorem State.setSt_st (b : Byte) : (s.setSt b).st = b := rfl
@[simp] theorem State.setSt_pc (b : Byte) : (s.setSt b).pc = s.pc := rfl
@[simp] theorem State.setSt_stk (b : Byte) : (s.setSt b).stk = s.stk := rfl
@[simp] theorem State.setSt_mem (b : Byte) : (s.setSt b).mem = s.mem := rfl
@[simp] theorem State.setSt_fb (b : Byte) : (s.setSt b).fb = s.fb := rfl
@[simp] theorem State.setSt_key (b : Byte) : (s.setSt b).key = s.key := rfl
@[simp] theorem State.setSt_status (b : Byte) : (s.setSt b).status = s.status := rfl
@[simp] theorem State.setSt_legacyShift (b : Byte) : (s.setSt b).legacyShift = s.legacyShift := rfl
@[simp] theorem State.setSt_chip48Jump (b : Byte) : (s.setSt b).chip48Jump = s.chip48Jump := rfl
@[simp] theorem State.setSt_report (b : Byte) : (s.setSt b).report = s.report := rfl
@[simp] theorem State.setSt_draws (b : Byte) : (s.setSt b).draws = s.draws := rfl
@[simp] theorem State.setSt_agenda (b : Byte) : (s.setSt b).agenda = s.agenda := rfl
@[simp] theorem State.setSt_reg (b : Byte) (y : RegIdx) : (s.setSt b).reg y = s.reg y := rfl
@[simp] theorem State.setSt_byte (b : Byte) (a : Nat) : (s.setSt b).byte a = s.byte a := rfl
@[simp] theorem State.setSt_pixel (b : Byte) (cx : Fin 64) (cy : Fin 32) : (s.setSt b).pixel cx cy = s.pixel cx cy := rfl

/-! ### setPc -/

@[simp] theorem State.setPc_v (w : Word) : (s.setPc w).v = s.v := rfl
@[simp] theorem State.setPc_i (w : Word) : (s.setPc w).i = s.i := rfl
@[simp] theorem State.setPc_dt (w : Word) : (s.setPc w).dt = s.dt := rfl
@[simp] theorem State.setPc_st (w : Word) : (s.setPc w).st = s.st := rfl
@[simp] theorem State.setPc_pc (w : Word) : (s.setPc w).pc = w := rfl
@[simp] theorem State.setPc_stk (w : Word) : (s.setPc w).stk = s.stk := rfl
@[simp] theorem State.setPc_mem (w : Word) : (s.setPc w).mem = s.mem := rfl
@[simp] theorem State.setPc_fb (w : Word) : (s.setPc w).fb = s.fb := rfl
@[simp] theorem State.setPc_key (w : Word) : (s.setPc w).key = s.key := rfl
@[simp] theorem State.setPc_status (w : Word) : (s.setPc w).status = s.status := rfl
@[simp] theorem State.setPc_legacyShift (w : Word) : (s.setPc w).legacyShift = s.legacyShift := rfl
@[simp] theorem State.setPc_chip48Jump (w : Word) : (s.setPc w).chip48Jump = s.chip48Jump := rfl
@[simp] theorem State.setPc_report (w : Word) : (s.setPc w).report = s.report := rfl
@[simp] theorem State.setPc_draws (w : Word) : (s.setPc w).draws = s.draws := rfl
@[simp] theorem State.setPc_agenda (w : Word) : (s.setPc w).agenda = s.agenda := rfl
@[simp] theorem State.setPc_reg (w : Word) (y : RegIdx) : (s.setPc w).reg y = s.reg y := rfl
@[simp] theorem State.setPc_byte (w : Word) (a : Nat) : (s.setPc w).byte a = s.byte a := rfl
@[simp] theorem State.setPc_pixel (w : Word) (cx : Fin 64) (cy : Fin 32) : (s.setPc w).pixel cx cy = s.pixel cx cy := rfl

/-! ### setStk -/

@[simp] theorem State.setStk_v (l : List Word) : (s.setStk l).v = s.v := rfl
@[simp] theorem State.setStk_i (l : List Word) : (s.setStk l).i = s.i := rfl
@[simp] theorem State.setStk_dt (l : List Word) : (s.setStk l).dt = s.dt := rfl
@[simp] theorem State.setStk_st (l : List Word) : (s.setStk l).st = s.st := rfl
@[simp] theorem State.setStk_pc (l : List Word) : (s.setStk l).pc = s.pc := rfl
@[simp] theorem State.setStk_stk (l : List Word) : (s.setStk l).stk = l := rfl
@[simp] theorem State.setStk_mem (l : List Word) : (s.setStk l).mem = s.mem := rfl
@[simp] theorem State.setStk_fb (l : List Word) : (s.setStk l).fb = s.fb := rfl
@[simp] theorem State.setStk_key (l : List Word) : (s.setStk l).key = s.key := rfl
@[simp] theorem State.setStk_status (l : List Word) : (s.setStk l).status = s.status := rfl
@[simp] theorem State.setStk_legacyShift (l : List Word) : (s.setStk l).legacyShift = s.legacyShift := rfl
@[simp] theorem State.setStk_chip48Jump (l : List Word) : (s.setStk l).chip48Jump = s.chip48Jump := rfl
@[simp] theorem State.setStk_report (l : List Word) : (s.setStk l).report = s.report := rfl
@[simp] theorem State.setStk_draws (l : List Word) : (s.setStk l).draws = s.draws := rfl
@[simp] theorem State.setStk_agenda (l : List Word) : (s.setStk l).agenda = s.agenda := rfl
@[simp] theorem State.setStk_reg (l : List Word) (y : RegIdx) : (s.setStk l).reg y = s.reg y := rfl
@[simp] theorem State.setStk_byte (l : List Word) (a : Nat) : (s.setStk l).byte a = s.byte a := rfl
@[simp] theorem State.setStk_pixel (l : List Word) (cx : Fin 64) (cy : Fin 32) : (s.setStk l).pixel cx cy = s.pixel cx cy := rfl

/-! ### setMem -/

@[simp] theorem State.setMem_v (m : Memory) : (s.setMem m).v = s.v := rfl
@[simp] theorem State.setMem_i (m : Memory) : (s.setMem m).i = s.i := rfl
@[simp] theorem State.setMem_dt (m : Memory) : (s.setMem m).dt = s.dt := rfl
@[simp] theorem State.setMem_st (m : Memory) : (s.setMem m).st = s.st := rfl
@[simp] theorem State.setMem_pc (m : Memory) : (s.setMem m).pc = s.pc := rfl
@[simp] theorem State.setMem_stk (m : Memory) : (s.setMem m).stk = s.stk := rfl
@[simp] theorem State.setMem_mem (m : Memory) : (s.setMem m).mem = m := rfl
@[simp] theorem State.setMem_fb (m : Memory) : (s.setMem m).fb = s.fb := rfl
@[simp] theorem State.setMem_key (m : Memory) : (s.setMem m).key = s.key := rfl
@[simp] theorem State.setMem_status (m : Memory) : (s.setMem m).status = s.status := rfl
@[simp] theorem State.setMem_legacyShift (m : Memory) : (s.setMem m).legacyShift = s.legacyShift := rfl
@[simp] theorem State.setMem_chip48Jump (m : Memory) : (s.setMem m).chip48Jump = s.chip48Jump := rfl
@[simp] theorem State.setMem_report (m : Memory) : (s.setMem m).report = s.report := rfl
@[simp] theorem State.setMem_draws (m : Memory) : (s.setMem m).draws = s.draws := rfl
@[simp] theorem State.setMem_agenda (m : Memory) : (s.setMem m).agenda = s.agenda := rfl
@[simp] theorem State.setMem_reg (m : Memory) (y : RegIdx) : (s.setMem m).reg y = s.reg y := rfl
@[simp] theorem State.setMem_pixel (m : Memory) (cx : Fin 64) (cy : Fin 32) : (s.setMem m).pixel cx cy = s.pixel cx cy := rfl

/-! ### setFb -/

@[simp] theorem State.setFb_v (d : Display) : (s.setFb d).v = s.v := rfl
@[simp] theorem State.setFb_i (d : Display) : (s.setFb d).i = s.i := rfl
@[simp] theorem State.setFb_dt (d : Display) : (s.setFb d).dt = s.dt := rfl
@[simp] theorem State.setFb_st (d : Display) : (s.setFb d).st = s.st := rfl
@[simp] theorem State.setFb_pc (d : Display) : (s.setFb d).pc = s.pc := rfl
@[simp] theorem State.setFb_stk (d : Display) : (s.setFb d).stk = s.stk := rfl
@[simp] theorem State.setFb_mem (d : Display) : (s.setFb d).mem = s.mem := rfl
@[simp] theorem State.setFb_fb (d : Display) : (s.setFb d).fb = d := rfl
@[simp] theorem State.setFb_key (d : Display) : (s.setFb d).key = s.key := rfl
@[simp] theorem State.setFb_status (d : Display) : (s.setFb d).status = s.status := rfl
@[simp] theorem State.setFb_legacyShift (d : Display) : (s.setFb d).legacyShift = s.legacyShift := rfl
@[simp] theorem State.setFb_chip48Jump (d : Display) : (s.setFb d).chip48Jump = s.chip48Jump := rfl
@[simp] theorem State.setFb_report (d : Display) : (s.setFb d).report = s.report := rfl
@[simp] theorem State.setFb_draws (d : Display) : (s.setFb d).draws = s.draws := rfl
@[simp] theorem State.setFb_agenda (d : Display) : (s.setFb d).agenda = s.agenda := rfl
@[simp] theorem State.setFb_reg (d : Display) (y : RegIdx) : (s.setFb d).reg y = s.reg y := rfl
@[simp] theorem State.setFb_byte (d : Display) (a : Nat) : (s.setFb d).byte a = s.byte a := rfl

/-! ### setKey -/

@[simp] theorem State.setKey_v (k : Fin 16) (b : Bool) : (s.setKey k b).v = s.v := rfl
@[simp] theorem State.setKey_i (k : Fin 16) (b : Bool) : (s.setKey k b).i = s.i := rfl
@[simp] theorem State.setKey_dt (k : Fin 16) (b : Bool) : (s.setKey k b).dt = s.dt := rfl
@[simp] theorem State.setKey_st (k : Fin 16) (b : Bool) : (s.setKey k b).st = s.st := rfl
@[simp] theorem State.setKey_pc (k : Fin 16) (b : Bool) : (s.setKey k b).pc = s.pc := rfl
@[simp] theorem State.setKey_stk (k : Fin 16) (b : Bool) : (s.setKey k b).stk = s.stk := rfl
@[simp] theorem State.setKey_mem (k : Fin 16) (b : Bool) : (s.setKey k b).mem = s.mem := rfl
@[simp] theorem State.setKey_fb (k : Fin 16) (b : Bool) : (s.setKey k b).fb = s.fb := rfl
@[simp] theorem State.setKey_key (k : Fin 16) (b : Bool) : (s.setKey k b).key = s.key.set k.val b := rfl
@[simp] theorem State.setKey_status (k : Fin 16) (b : Bool) : (s.setKey k b).status = s.status := rfl
@[simp] theorem State.setKey_legacyShift (k : Fin 16) (b : Bool) : (s.setKey k b).legacyShift = s.legacyShift := rfl
@[simp] theorem State.setKey_chip48Jump (k : Fin 16) (b : Bool) : (s.setKey k b).chip48Jump = s.chip48Jump := rfl
@[simp] theorem State.setKey_report (k : Fin 16) (b : Bool) : (s.setKey k b).report = s.report := rfl
@[simp] theorem State.setKey_draws (k : Fin 16) (b : Bool) : (s.setKey k b).draws = s.draws := rfl
@[simp] theorem State.setKey_agenda (k : Fin 16) (b : Bool) : (s.setKey k b).agenda = s.agenda := rfl
@[simp] theorem State.setKey_reg (k : Fin 16) (b : Bool) (y : RegIdx) : (s.setKey k b).reg y = s.reg y := rfl
@[simp] theorem State.setKey_byte (k : Fin 16) (b : Bool) (a : Nat) : (s.setKey k b).byte a = s.byte a := rfl
@[simp] theorem State.setKey_pixel (k : Fin 16) (b : Bool) (cx : Fin 64) (cy : Fin 32) : (s.setKey k b).pixel cx cy = s.pixel cx cy := rfl

/-! ### setReport -/

@[simp] theorem State.setReport_v (r : Option StepError) : (s.setReport r).v = s.v := rfl
@[simp] theorem State.setReport_i (r : Option StepError) : (s.setReport r).i = s.i := rfl
@[simp] theorem State.setReport_dt (r : Option StepError) : (s.setReport r).dt = s.dt := rfl
@[simp] theorem State.setReport_st (r : Option StepError) : (s.setReport r).st = s.st := rfl
@[simp] theorem State.setReport_pc (r : Option StepError) : (s.setReport r).pc = s.pc := rfl
@[simp] theorem State.setReport_stk (r : Option StepError) : (s.setReport r).stk = s.stk := rfl
@[simp] theorem State.setReport_mem (r : Option StepError) : (s.setReport r).mem = s.mem := rfl
@[simp] theorem State.setReport_fb (r : Option StepError) : (s.setReport r).fb = s.fb := rfl
@[simp] theorem State.setReport_key (r : Option StepError) : (s.setReport r).key = s.key := rfl
@[simp] theorem State.setReport_status (r : Option StepError) : (s.setReport r).status = s.status := rfl
@[simp] theorem State.setReport_legacyShift (r : Option StepError) : (s.setReport r).legacyShift = s.legacyShift := rfl
@[simp] theorem State.setReport_chip48Jump (r : Option StepError) : (s.setReport r).chip48Jump = s.chip48Jump := rfl
@[simp] theorem State.setReport_report (r : Option StepError) : (s.setReport r).report = r := rfl
@[simp] theorem State.setReport_draws (r : Option StepError) : (s.setReport r).draws = s.draws := rfl
@[simp] theorem State.setReport_agenda (r : Option StepError) : (s.setReport r).agenda = s.agenda := rfl
@[simp] theorem State.setReport_reg (r : Option StepError) (y : RegIdx) : (s.setReport r).reg y = s.reg y := rfl
@[simp] theorem State.setReport_byte (r : Option StepError) (a : Nat) : (s.setReport r).byte a = s.byte a := rfl
@[simp] theorem State.setReport_pixel (r : Option StepError) (cx : Fin 64) (cy : Fin 32) : (s.setReport r).pixel cx cy = s.pixel cx cy := rfl

/-! ### setDraws -/

@[simp] theorem State.setDraws_v (n : Nat) : (s.setDraws n).v = s.v := rfl
@[simp] theorem State.setDraws_i (n : Nat) : (s.setDraws n).i = s.i := rfl
@[simp] theorem State.setDraws_dt (n : Nat) : (s.setDraws n).dt = s.dt := rfl
@[simp] theorem State.setDraws_st (n : Nat) : (s.setDraws n).st = s.st := rfl
@[simp] theorem State.setDraws_pc (n : Nat) : (s.setDraws n).pc = s.pc := rfl
@[simp] theorem State.setDraws_stk (n : Nat) : (s.setDraws n).stk = s.stk := rfl
@[simp] theorem State.setDraws_mem (n : Nat) : (s.setDraws n).mem = s.mem := rfl
@[simp] theorem State.setDraws_fb (n : Nat) : (s.setDraws n).fb = s.fb := rfl
@[simp] theorem State.setDraws_key (n : Nat) : (s.setDraws n).key = s.key := rfl
@[simp] theorem State.setDraws_status (n : Nat) : (s.setDraws n).status = s.status := rfl
@[simp] theorem State.setDraws_legacyShift (n : Nat) : (s.setDraws n).legacyShift = s.legacyShift := rfl
@[simp] theorem State.setDraws_chip48Jump (n : Nat) : (s.setDraws n).chip48Jump = s.chip48Jump := rfl
@[simp] theorem State.setDraws_report (n : Nat) : (s.setDraws n).report = s.report := rfl
@[simp] theorem State.setDraws_draws (n : Nat) : (s.setDraws n).draws = n := rfl
@[simp] theorem State.setDraws_agenda (n : Nat) : (s.setDraws n).agenda = s.agenda := rfl
@[simp] theorem State.setDraws_reg (n : Nat) (y : RegIdx) : (s.setDraws n).reg y = s.reg y := rfl
@[simp] theorem State.setDraws_byte (n : Nat) (a : Nat) : (s.setDraws n).byte a = s.byte a := rfl
@[simp] theorem State.setDraws_pixel (n : Nat) (cx : Fin 64) (cy : Fin 32) : (s.setDraws n).pixel cx cy = s.pixel cx cy := rfl

/-! ### setAgenda -/

@[simp] theorem State.setAgenda_v (l : List HostMove) : (s.setAgenda l).v = s.v := rfl
@[simp] theorem State.setAgenda_i (l : List HostMove) : (s.setAgenda l).i = s.i := rfl
@[simp] theorem State.setAgenda_dt (l : List HostMove) : (s.setAgenda l).dt = s.dt := rfl
@[simp] theorem State.setAgenda_st (l : List HostMove) : (s.setAgenda l).st = s.st := rfl
@[simp] theorem State.setAgenda_pc (l : List HostMove) : (s.setAgenda l).pc = s.pc := rfl
@[simp] theorem State.setAgenda_stk (l : List HostMove) : (s.setAgenda l).stk = s.stk := rfl
@[simp] theorem State.setAgenda_mem (l : List HostMove) : (s.setAgenda l).mem = s.mem := rfl
@[simp] theorem State.setAgenda_fb (l : List HostMove) : (s.setAgenda l).fb = s.fb := rfl
@[simp] theorem State.setAgenda_key (l : List HostMove) : (s.setAgenda l).key = s.key := rfl
@[simp] theorem State.setAgenda_status (l : List HostMove) : (s.setAgenda l).status = s.status := rfl
@[simp] theorem State.setAgenda_legacyShift (l : List HostMove) : (s.setAgenda l).legacyShift = s.legacyShift := rfl
@[simp] theorem State.setAgenda_chip48Jump (l : List HostMove) : (s.setAgenda l).chip48Jump = s.chip48Jump := rfl
@[simp] theorem State.setAgenda_report (l : List HostMove) : (s.setAgenda l).report = s.report := rfl
@[simp] theorem State.setAgenda_draws (l : List HostMove) : (s.setAgenda l).draws = s.draws := rfl
@[simp] theorem State.setAgenda_agenda (l : List HostMove) : (s.setAgenda l).agenda = l := rfl
@[simp] theorem State.setAgenda_reg (l : List HostMove) (y : RegIdx) : (s.setAgenda l).reg y = s.reg y := rfl
@[simp] theorem State.setAgenda_byte (l : List HostMove) (a : Nat) : (s.setAgenda l).byte a = s.byte a := rfl
@[simp] theorem State.setAgenda_pixel (l : List HostMove) (cx : Fin 64) (cy : Fin 32) : (s.setAgenda l).pixel cx cy = s.pixel cx cy := rfl

/-! ### Registers, bytes and pixels through the updates that touch them -/

theorem State.setV_reg (x y : RegIdx) (b : Byte) : (s.setV x b).reg y = if y = x then b else s.reg y := by
  simp only [State.reg, State.setV_v, Vector.getElem_set, Fin.ext_iff]
  by_cases h : x.val = y.val <;> simp [h, eq_comm]

@[simp] theorem State.setV_reg_same (x : RegIdx) (b : Byte) : (s.setV x b).reg x = b := by
  simp [State.setV_reg]

theorem State.setV_reg_other {x y : RegIdx} (h : y ≠ x) (b : Byte) : (s.setV x b).reg y = s.reg y := by
  simp [State.setV_reg, h]

@[simp] theorem State.setRegs_reg (v : Vector Byte 16) (y : RegIdx) : (s.setRegs v).reg y = v[y.val] := rfl

@[simp] theorem State.setMem_byte (m : Memory) (a : Nat) : (s.setMem m).byte a = Memory.read m a := rfl

@[simp] theorem State.setFb_pixel (d : Display) (cx : Fin 64) (cy : Fin 32) :
    (s.setFb d).pixel cx cy = Display.get d cx cy := rfl

end Sys2Proof.Machine
end

