-- ==== Sys2Proof/Laws/Memory.lean ====
section
/-! SUPPORT. Memory: a read after a write, the canonical form, and what a block read or write answers. -/

namespace Sys2Proof.Machine

/-! ### One byte -/

theorem Memory.read_filter (m : Memory) (a c : Nat) :
    Memory.read (m.filter (fun p => p.1 != a)) c = if c = a then Memory.unlisted c else Memory.read m c := by
  induction m with
  | nil => simp [Memory.read, Memory.unlisted]
  | cons p rest ih =>
    obtain ⟨b, w⟩ := p
    by_cases hb : b = a
    · subst hb
      by_cases hc : c = b
      · simp [ih, if_pos hc]
      · simp [Memory.read, ih, hc]
    · by_cases hc : c = a
      · subst hc; simp [Memory.read, ih, hb, Ne.symm hb]
      · simp [Memory.read, ih, hb, hc]

theorem Memory.read_cons (a : Nat) (v : Byte) (m : Memory) (c : Nat) :
    Memory.read (Memory.cons a v m) c = if c = a then v else Memory.read m c := by
  unfold Memory.cons
  by_cases hv : v = Memory.unlisted a
  · by_cases hc : c = a
    · subst hc; simp [hv, Memory.read_filter]
    · simp [hv, Memory.read_filter, hc]
  · simp [hv, Memory.read]

/-- A read after a write (R54, R59): the byte written at its address, the old byte everywhere else. -/
theorem Memory.read_write (m : Memory) (a : Nat) (v : Byte) (c : Nat) :
    Memory.read (Memory.write m a v) c = if c = a then v else Memory.read m c := by
  induction m with
  | nil => simp [Memory.write, Memory.read_cons]
  | cons p rest ih =>
    obtain ⟨b, w⟩ := p
    unfold Memory.write
    by_cases h1 : a < b
    · simp [h1, Memory.read_cons]
    · by_cases h2 : a = b
      · subst h2
        by_cases hc : c = a <;> simp [Memory.read_cons, Memory.read, hc]
      · simp only [h1, h2, if_false, Memory.read, ih]
        by_cases hc : c = b
        · subst hc; simp [Ne.symm h2]
        · simp [hc]

/-! ### The canonical form -/

theorem Memory.wf_nil : Memory.wf [] := by simp [Memory.wf]

theorem Memory.wf_tail {c : Host.Cell} {m : Memory} (h : Memory.wf (c :: m)) : Memory.wf m :=
  ⟨(List.pairwise_cons.1 h.1).2, fun d hd => h.2 d (List.mem_cons_of_mem _ hd)⟩

/-- Putting a cell before cells of larger addresses keeps the form. -/
theorem Memory.cons_wf {a : Nat} (v : Byte) {m : Memory} (ha : a ≤ Config.lastAddr) (h : Memory.wf m)
    (hlt : ∀ c ∈ m, a < c.1) : Memory.wf (Memory.cons a v m) := by
  unfold Memory.cons
  by_cases hv : v = Memory.unlisted a
  · rw [if_pos hv]
    exact ⟨h.1.filter _, fun c hc => h.2 c (List.mem_filter.1 hc).1⟩
  · rw [if_neg hv]
    refine ⟨List.pairwise_cons.2 ⟨hlt, h.1⟩, fun c hc => ?_⟩
    rcases List.mem_cons.1 hc with rfl | hc
    · exact ⟨ha, hv⟩
    · exact h.2 c hc

/-- Every cell after a write was there before or is the one written. -/
theorem Memory.mem_write {m : Memory} {a : Nat} {v : Byte} {c : Host.Cell} (h : c ∈ Memory.write m a v) :
    c ∈ m ∨ c.1 = a := by
  have hcons : ∀ l : Memory, c ∈ Memory.cons a v l → c ∈ l ∨ c.1 = a := by
    intro l hc
    unfold Memory.cons at hc
    split at hc
    · exact Or.inl (List.mem_filter.1 hc).1
    · rcases List.mem_cons.1 hc with rfl | hc
      · exact Or.inr rfl
      · exact Or.inl hc
  induction m with
  | nil => exact hcons [] h
  | cons p rest ih =>
    obtain ⟨b, w⟩ := p
    unfold Memory.write at h
    split at h
    · exact hcons _ h
    · split at h
      · rcases hcons _ h with h | h
        · exact Or.inl (List.mem_cons_of_mem _ h)
        · exact Or.inr h
      · rcases List.mem_cons.1 h with rfl | h
        · exact Or.inl List.mem_cons_self
        · exact (ih h).imp_left (List.mem_cons_of_mem _)

/-- A write inside the address space keeps the canonical form. -/
theorem Memory.write_wf {m : Memory} {a : Nat} (v : Byte) (ha : a ≤ Config.lastAddr) (h : Memory.wf m) :
    Memory.wf (Memory.write m a v) := by
  induction m with
  | nil => exact Memory.cons_wf v ha Memory.wf_nil (by simp)
  | cons p rest ih =>
    obtain ⟨b, w⟩ := p
    have hb := (List.pairwise_cons.1 h.1).1
    unfold Memory.write
    split
    · rename_i hab
      refine Memory.cons_wf v ha h fun c hc => ?_
      rcases List.mem_cons.1 hc with rfl | hc
      · exact hab
      · exact lt_trans hab (hb c hc)
    · rename_i hab
      split
      · rename_i heq
        subst heq
        exact Memory.cons_wf v ha (Memory.wf_tail h) hb
      · rename_i hne
        have ih' := ih (Memory.wf_tail h)
        refine ⟨List.pairwise_cons.2 ⟨fun c hc => ?_, ih'.1⟩, fun c hc => ?_⟩
        · rcases Memory.mem_write hc with hc | hc
          · exact hb c hc
          · show b < c.1
            omega
        · rcases List.mem_cons.1 hc with rfl | hc
          · exact h.2 _ List.mem_cons_self
          · exact ih'.2 c hc

/-! ### The access primitives -/

theorem memRead1_eq_ok {m : Memory} {a : Nat} {b : Byte} :
    memRead1 m a = .ok b ↔ a ≤ 4095 ∧ b = Memory.read m a := by
  unfold memRead1
  split <;> simp_all [eq_comm]

theorem memWrite1_eq_ok {m : Memory} {a : Nat} {v : Byte} {m' : Memory} :
    memWrite1 m a v = .ok m' ↔ a ≤ 4095 ∧ m' = Memory.write m a v := by
  unfold memWrite1
  split <;> simp_all [eq_comm]

theorem memRead2_eq_ok {m : Memory} {a : Nat} {w : Word} :
    memRead2 m a = .ok w ↔ a + 1 ≤ 4095 ∧ w = assemble (Memory.read m a) (Memory.read m (a + 1)) := by
  unfold memRead2
  split <;> simp_all [eq_comm]

/-! ### Blocks -/

/-- A block read that fits answers its bytes in ascending order. -/
theorem readBlock_fits (m : Memory) : ∀ (n a : Nat), a + n ≤ 4096 →
    readBlock m a n = .ok ((List.range n).map fun k => Memory.read m (a + k))
  | 0, a, _ => rfl
  | n + 1, a, h => by
    have ha : a ≤ 4095 := by omega
    have ih := readBlock_fits m n (a + 1) (by omega)
    simp only [readBlock, memRead1, Config.lastAddr, ha, if_true, ih, List.range_succ_eq_map, List.map_cons,
      List.map_map, Nat.add_zero]
    congr 2
    apply List.map_congr_left
    intro k _
    simp only [Function.comp, Nat.succ_eq_add_one]
    congr 1
    omega

/-- A block read that does not fit faults at its first address above 4095. -/
theorem readBlock_beyond (m : Memory) : ∀ (n a : Nat), 0 < n → 4096 < a + n →
    readBlock m a n = .error (.memoryBounds (max a 4096))
  | n + 1, a, _, h => by
    by_cases ha : a ≤ 4095
    · have hn : 0 < n := by omega
      have ih := readBlock_beyond m n (a + 1) hn (by omega)
      simp only [readBlock, memRead1, Config.lastAddr, ha, if_true, ih]
      congr 2
      omega
    · simp only [readBlock, memRead1, Config.lastAddr, ha, if_false]
      congr 2
      omega

/-- A block write that fits answers a memory with the bytes at ascending addresses and every other byte as before. -/
theorem writeBlock_fits : ∀ (bs : List Byte) (m : Memory) (a : Nat), a + bs.length ≤ 4096 →
    ∃ m', writeBlock m a bs = .ok m' ∧
      (∀ c, Memory.read m' c = if h : a ≤ c ∧ c - a < bs.length then bs[c - a]'h.2 else Memory.read m c) ∧
      (Memory.wf m → Memory.wf m')
  | [], m, a, _ => ⟨m, rfl, by simp, id⟩
  | b :: bs, m, a, h => by
    have ha : a ≤ 4095 := by simp at h; omega
    obtain ⟨m', hm, hread, hwf⟩ := writeBlock_fits bs (Memory.write m a b) (a + 1) (by simp at h; omega)
    refine ⟨m', by simp [writeBlock, memWrite1, ha, hm], fun c => ?_, fun w => hwf (Memory.write_wf b ha w)⟩
    rw [hread c]
    by_cases h1 : c = a
    · subst h1
      simp [Memory.read_write]
    · by_cases h2 : a ≤ c
      · obtain ⟨k, hk⟩ : ∃ k, c - a = k + 1 := ⟨c - a - 1, by omega⟩
        have hk' : c - (a + 1) = k := by omega
        have h3 : a + 1 ≤ c := by omega
        simp [hk, hk', h2, h3, Memory.read_write, h1]
      · have h3 : ¬a + 1 ≤ c := by omega
        simp [h2, h3, Memory.read_write, h1]

/-- A block write that does not fit faults at its first address above 4095. -/
theorem writeBlock_beyond : ∀ (bs : List Byte) (m : Memory) (a : Nat), 0 < bs.length → 4096 < a + bs.length →
    writeBlock m a bs = .error (.memoryBounds (max a 4096))
  | b :: bs, m, a, _, h => by
    simp only [List.length_cons] at h
    by_cases ha : a ≤ 4095
    · have hn : 0 < bs.length := by omega
      have ih := writeBlock_beyond bs (Memory.write m a b) (a + 1) hn (by omega)
      simp only [writeBlock, memWrite1, Config.lastAddr, ha, if_true, ih]
      congr 2
      omega
    · simp only [writeBlock, memWrite1, Config.lastAddr, ha, if_false]
      congr 2
      omega

end Sys2Proof.Machine
end

