-- ==== Sys2Proof/Laws/Operands.lean ====
section
/-! SUPPORT. The operand forms: registers filled from a list, the registers a STORE reads, the key lookup. -/

namespace Sys2Proof.Machine

theorem fillRegs_get : ∀ (bs : List Byte) (v : Vector Byte 16) (k j : Nat) (hj : j < 16),
    (fillRegs v k bs)[j] = if h : k ≤ j ∧ j - k < bs.length then bs[j - k]'h.2 else v[j]
  | [], v, k, j, hj => by simp [fillRegs]
  | b :: bs, v, k, j, hj => by
    rw [fillRegs, fillRegs_get bs _ (k + 1) j hj]
    by_cases h1 : k = j
    · subst h1
      simp
    · by_cases h2 : k ≤ j
      · obtain ⟨n, hn⟩ : ∃ n, j - k = n + 1 := ⟨j - k - 1, by omega⟩
        have hn' : j - (k + 1) = n := by omega
        have h3 : k + 1 ≤ j := by omega
        simp [hn, hn', h2, h3, h1]
      · have h3 : ¬k + 1 ≤ j := by omega
        simp [h2, h3, h1]

theorem regsThrough_length (s : State) (x : RegIdx) : (regsThrough s x).length = x.val + 1 := by
  simp [regsThrough]

theorem regsThrough_get (s : State) (x : RegIdx) (k : Nat) (h : k < (regsThrough s x).length) :
    (regsThrough s x)[k] = s.reg ⟨k, by have := regsThrough_length s x; omega⟩ := by
  simp [regsThrough, State.reg]

theorem keyDown_eq_ok {s : State} {v : Byte} {b : Bool} :
    keyDown s v = .ok b ↔ ∃ h : v.toNat < 16, b = s.key[v.toNat] := by
  unfold keyDown
  split <;> simp_all [eq_comm]

theorem keyDown_eq_error {s : State} {v : Byte} {f : Fault} :
    keyDown s v = .error f ↔ 16 ≤ v.toNat ∧ f = .keyIndex v := by
  unfold keyDown
  split <;> simp_all [eq_comm]

theorem effAddr_zero (s : State) : effAddr s 0 = s.i.toNat := rfl

theorem zext16_toNat (nnn : Addr12) : (zext16 nnn).toNat = nnn.toNat := by
  simp [zext16]; omega

end Sys2Proof.Machine
end

