-- ==== Sys2Proof/Laws/Outcome.lean ====
section
/-! SUPPORT. The ends of a step: what finish, jumpTo, skipIf, the errors and the faults answer, each said once. -/

namespace Sys2Proof.Machine

/-! ### The commit (R102, R104) -/

@[simp] theorem State.commit_v (s : State) (inc : Word) : (s.commit inc).v = s.v := rfl
@[simp] theorem State.commit_i (s : State) (inc : Word) : (s.commit inc).i = s.i := rfl
@[simp] theorem State.commit_dt (s : State) (inc : Word) : (s.commit inc).dt = s.dt := rfl
@[simp] theorem State.commit_st (s : State) (inc : Word) : (s.commit inc).st = s.st := rfl
@[simp] theorem State.commit_stk (s : State) (inc : Word) : (s.commit inc).stk = s.stk := rfl
@[simp] theorem State.commit_mem (s : State) (inc : Word) : (s.commit inc).mem = s.mem := rfl
@[simp] theorem State.commit_fb (s : State) (inc : Word) : (s.commit inc).fb = s.fb := rfl
@[simp] theorem State.commit_key (s : State) (inc : Word) : (s.commit inc).key = s.key := rfl
@[simp] theorem State.commit_status (s : State) (inc : Word) : (s.commit inc).status = s.status := rfl
@[simp] theorem State.commit_legacyShift (s : State) (inc : Word) : (s.commit inc).legacyShift = s.legacyShift := rfl
@[simp] theorem State.commit_chip48Jump (s : State) (inc : Word) : (s.commit inc).chip48Jump = s.chip48Jump := rfl
@[simp] theorem State.commit_draws (s : State) (inc : Word) : (s.commit inc).draws = s.draws := rfl
@[simp] theorem State.commit_agenda (s : State) (inc : Word) : (s.commit inc).agenda = s.agenda := rfl
@[simp] theorem State.commit_pc (s : State) (inc : Word) : (s.commit inc).pc = s.pc + inc := rfl
@[simp] theorem State.commit_report (s : State) (inc : Word) : (s.commit inc).report = none := rfl
@[simp] theorem State.commit_reg (s : State) (inc : Word) (x : RegIdx) : (s.commit inc).reg x = s.reg x := rfl
@[simp] theorem State.commit_byte (s : State) (inc : Word) (a : Nat) : (s.commit inc).byte a = s.byte a := rfl
@[simp] theorem State.commit_pixel (s : State) (inc : Word) (cx : Fin 64) (cy : Fin 32) :
    (s.commit inc).pixel cx cy = s.pixel cx cy := rfl

/-! ### Ends that always answer a next state -/

theorem finish_eq (inc : Word) (s : State) : finish inc s = .next (s.commit inc) := rfl

theorem jumpTo_eq (target : Word) (s : State) : jumpTo target s = .next ((s.setPc target).setReport none) := by
  simp [jumpTo, finish, State.commit, State.setPc]

theorem skipIf_eq (c : Bool) (s : State) : skipIf c s = .next (s.commit (if c then 4 else 2)) := rfl

theorem raiseError_eq (e : StepError) (s : State) : raiseError e s = .next (s.setReport (some e)) := rfl

/-! ### Ends that depend on an access or a stack operation -/

variable {α : Type}

@[simp] theorem orFault_ok (a : α) (k : α → Result) : orFault (.ok a) k = k a := rfl

@[simp] theorem orFault_error (f : Fault) (k : α → Result) : orFault (.error f) k = .fault f := rfl

theorem orFault_eq_next {r : Except Fault α} {k : α → Result} {t : State} :
    orFault r k = .next t ↔ ∃ a, r = .ok a ∧ k a = .next t := by
  cases r <;> simp

@[simp] theorem orError_ok (s : State) (a : α) (k : α → Result) : orError s (.ok a) k = k a := rfl

@[simp] theorem orError_error (s : State) (e : StepError) (k : α → Result) :
    orError s (.error e) k = .next (s.setReport (some e)) := rfl

theorem orError_eq_next {s : State} {r : Except StepError α} {k : α → Result} {t : State} :
    orError s r k = .next t ↔
      (∃ a, r = .ok a ∧ k a = .next t) ∨ (∃ e, r = .error e ∧ t = s.setReport (some e)) := by
  cases r <;> simp [eq_comm]

/-! ### Flag and result (R141) -/

theorem State.setFlagThen_reg (s : State) (flag : Byte) (x : RegIdx) (r : Byte) (y : RegIdx) :
    (s.setFlagThen flag x r).reg y = if y = x then r else if y = Config.flagReg then flag else s.reg y := by
  simp [State.setFlagThen, State.setV_reg]

theorem flagByte_toNat (b : Bool) : (flagByte b).toNat = if b then 1 else 0 := by
  cases b <;> rfl

/-! ### The machine after a fault (R30, R224) -/

@[simp] theorem enterFaulted_status (s : State) : (enterFaulted s).status = .faulted := rfl
@[simp] theorem enterFaulted_legacyShift (s : State) : (enterFaulted s).legacyShift = s.legacyShift := rfl
@[simp] theorem enterFaulted_chip48Jump (s : State) : (enterFaulted s).chip48Jump = s.chip48Jump := rfl
@[simp] theorem enterFaulted_report (s : State) : (enterFaulted s).report = s.report := rfl
@[simp] theorem enterFaulted_draws (s : State) : (enterFaulted s).draws = s.draws := rfl
@[simp] theorem enterFaulted_agenda (s : State) : (enterFaulted s).agenda = s.agenda := rfl

@[simp] theorem stateAfter_next (s t : State) : stateAfter s (.next t) = t := rfl

@[simp] theorem stateAfter_notRunning (s : State) : stateAfter s (.fault .notRunning) = s := rfl

/-- Every fault of a move that was made leaves the faulted machine. -/
theorem stateAfter_fault {f : Fault} (h : f ≠ .notRunning) (s : State) : stateAfter s (.fault f) = enterFaulted s := by
  cases f <;> first | rfl | exact absurd rfl h

end Sys2Proof.Machine
end

