-- ==== Sys2Proof/Laws/PerInstr.lean ====
section
/-! SUPPORT. One lemma per instruction: its encoded word is a word of its row of spec/opcode_table.json, that is
`encode i & mask = match` (30_encoding.md R76 to R81). -/

namespace Sys2Proof.Laws.MatchesTable

/-- The encoder's word has the bits that the instruction's row of the table fixes. -/
def Statement (i : Instr) : Prop := encode i &&& (tableRow i).1 = (tableRow i).2

theorem cls : Statement .cls := by
  show (0x00E0 : Word) &&& 0xFFFF = 0x00E0
  decide

theorem ret : Statement .ret := by
  show (0x00EE : Word) &&& 0xFFFF = 0x00EE
  decide

theorem jp (nnn : Addr12) : Statement (.jp nnn) := by
  show encNNN 0x1 nnn &&& 0xF000 = 0x1000
  rw [encNNN_group]; decide

theorem call (nnn : Addr12) : Statement (.call nnn) := by
  show encNNN 0x2 nnn &&& 0xF000 = 0x2000
  rw [encNNN_group]; decide

theorem seImm (x : RegIdx) (kk : Byte) : Statement (.seImm x kk) := by
  show encXKK 0x3 x kk &&& 0xF000 = 0x3000
  rw [encXKK_group]; decide

theorem sneImm (x : RegIdx) (kk : Byte) : Statement (.sneImm x kk) := by
  show encXKK 0x4 x kk &&& 0xF000 = 0x4000
  rw [encXKK_group]; decide

theorem seReg (x : RegIdx) (y : RegIdx) : Statement (.seReg x y) := by
  show encXYN 0x5 x y 0x0 &&& 0xF000 = 0x5000
  rw [encXYN_group]; decide

theorem ldImm (x : RegIdx) (kk : Byte) : Statement (.ldImm x kk) := by
  show encXKK 0x6 x kk &&& 0xF000 = 0x6000
  rw [encXKK_group]; decide

theorem addImm (x : RegIdx) (kk : Byte) : Statement (.addImm x kk) := by
  show encXKK 0x7 x kk &&& 0xF000 = 0x7000
  rw [encXKK_group]; decide

theorem ldReg (x : RegIdx) (y : RegIdx) : Statement (.ldReg x y) := by
  show encXYN 0x8 x y 0x0 &&& 0xF00F = 0x8000
  rw [encXYN_group_low]; decide

theorem orReg (x : RegIdx) (y : RegIdx) : Statement (.orReg x y) := by
  show encXYN 0x8 x y 0x1 &&& 0xF00F = 0x8001
  rw [encXYN_group_low]; decide

theorem andReg (x : RegIdx) (y : RegIdx) : Statement (.andReg x y) := by
  show encXYN 0x8 x y 0x2 &&& 0xF00F = 0x8002
  rw [encXYN_group_low]; decide

theorem xorReg (x : RegIdx) (y : RegIdx) : Statement (.xorReg x y) := by
  show encXYN 0x8 x y 0x3 &&& 0xF00F = 0x8003
  rw [encXYN_group_low]; decide

theorem addReg (x : RegIdx) (y : RegIdx) : Statement (.addReg x y) := by
  show encXYN 0x8 x y 0x4 &&& 0xF00F = 0x8004
  rw [encXYN_group_low]; decide

theorem sub (x : RegIdx) (y : RegIdx) : Statement (.sub x y) := by
  show encXYN 0x8 x y 0x5 &&& 0xF00F = 0x8005
  rw [encXYN_group_low]; decide

theorem shr (x : RegIdx) (y : RegIdx) : Statement (.shr x y) := by
  show encXYN 0x8 x y 0x6 &&& 0xF00F = 0x8006
  rw [encXYN_group_low]; decide

theorem subn (x : RegIdx) (y : RegIdx) : Statement (.subn x y) := by
  show encXYN 0x8 x y 0x7 &&& 0xF00F = 0x8007
  rw [encXYN_group_low]; decide

theorem shl (x : RegIdx) (y : RegIdx) : Statement (.shl x y) := by
  show encXYN 0x8 x y 0xE &&& 0xF00F = 0x800E
  rw [encXYN_group_low]; decide

theorem sneReg (x : RegIdx) (y : RegIdx) : Statement (.sneReg x y) := by
  show encXYN 0x9 x y 0x0 &&& 0xF000 = 0x9000
  rw [encXYN_group]; decide

theorem ldI (nnn : Addr12) : Statement (.ldI nnn) := by
  show encNNN 0xA nnn &&& 0xF000 = 0xA000
  rw [encNNN_group]; decide

theorem jpOff (_x : RegIdx) (nnn : Addr12) : Statement (.jpOff _x nnn) := by
  show encNNN 0xB nnn &&& 0xF000 = 0xB000
  rw [encNNN_group]; decide

theorem rnd (x : RegIdx) (kk : Byte) : Statement (.rnd x kk) := by
  show encXKK 0xC x kk &&& 0xF000 = 0xC000
  rw [encXKK_group]; decide

theorem drw (x : RegIdx) (y : RegIdx) (n : Nibble) : Statement (.drw x y n) := by
  show encXYN 0xD x y n &&& 0xF000 = 0xD000
  rw [encXYN_group]; decide

theorem skp (x : RegIdx) : Statement (.skp x) := by
  show encXKK 0xE x 0x9E &&& 0xF0FF = 0xE09E
  rw [encXKK_group_low]; decide

theorem sknp (x : RegIdx) : Statement (.sknp x) := by
  show encXKK 0xE x 0xA1 &&& 0xF0FF = 0xE0A1
  rw [encXKK_group_low]; decide

theorem ldVxDt (x : RegIdx) : Statement (.ldVxDt x) := by
  show encXKK 0xF x 0x07 &&& 0xF0FF = 0xF007
  rw [encXKK_group_low]; decide

theorem waitkey (x : RegIdx) : Statement (.waitkey x) := by
  show encXKK 0xF x 0x0A &&& 0xF0FF = 0xF00A
  rw [encXKK_group_low]; decide

theorem ldDtVx (x : RegIdx) : Statement (.ldDtVx x) := by
  show encXKK 0xF x 0x15 &&& 0xF0FF = 0xF015
  rw [encXKK_group_low]; decide

theorem ldStVx (x : RegIdx) : Statement (.ldStVx x) := by
  show encXKK 0xF x 0x18 &&& 0xF0FF = 0xF018
  rw [encXKK_group_low]; decide

theorem addI (x : RegIdx) : Statement (.addI x) := by
  show encXKK 0xF x 0x1E &&& 0xF0FF = 0xF01E
  rw [encXKK_group_low]; decide

theorem ldF (x : RegIdx) : Statement (.ldF x) := by
  show encXKK 0xF x 0x29 &&& 0xF0FF = 0xF029
  rw [encXKK_group_low]; decide

theorem bcd (x : RegIdx) : Statement (.bcd x) := by
  show encXKK 0xF x 0x33 &&& 0xF0FF = 0xF033
  rw [encXKK_group_low]; decide

theorem store (x : RegIdx) : Statement (.store x) := by
  show encXKK 0xF x 0x55 &&& 0xF0FF = 0xF055
  rw [encXKK_group_low]; decide

theorem load (x : RegIdx) : Statement (.load x) := by
  show encXKK 0xF x 0x65 &&& 0xF0FF = 0xF065
  rw [encXKK_group_low]; decide

end Sys2Proof.Laws.MatchesTable
end

