-- ==== Sys2Proof/Laws/Stack.lean ====
section
/-! SUPPORT. The call stack's push and pop (10_state.md R35). -/

namespace Sys2Proof.Machine

theorem push_eq_ok {v : Word} {stk l : List Word} : push v stk = .ok l ↔ stk.length < 16 ∧ l = stk ++ [v] := by
  unfold push
  split <;> simp_all [eq_comm]

theorem push_eq_error {v : Word} {stk : List Word} {e : StepError} :
    push v stk = .error e ↔ 16 ≤ stk.length ∧ e = .stackOverflow := by
  unfold push
  split <;> simp_all [eq_comm]

theorem pop_eq_ok {stk : List Word} {v : Word} {l : List Word} : pop stk = .ok (v, l) ↔ stk = l ++ [v] := by
  rcases List.eq_nil_or_concat stk with rfl | ⟨l', w, rfl⟩
  · simp [pop]
  · simp [pop, and_comm, eq_comm]

theorem pop_eq_error {stk : List Word} {e : StepError} : pop stk = .error e ↔ stk = [] ∧ e = .stackUnderflow := by
  rcases List.eq_nil_or_concat stk with rfl | ⟨l', w, rfl⟩
  · simp [pop, eq_comm]
  · simp [pop]

end Sys2Proof.Machine
end

