-- ==== Sys2Proof/Laws/Step.lean ====
section
/-! SUPPORT. What a move of the machine can be, said once: every later fact about `step` splits by these cases. -/

namespace Sys2Proof.Machine

/-- The cases of a move that answers a next state (R102, R238, R240, R242). -/
theorem step_eq_next {s t : State} (h : step s = .next t) :
    s.status = .running ∧
      ((s.agenda = [] ∧ tick s = .next t) ∨
        (∃ rest, s.agenda = .tick :: rest ∧ tick (s.setAgenda rest) = .next t) ∨
        (∃ rest, s.agenda = .timerTick :: rest ∧ t = timerTick (s.setAgenda rest)) ∨
        ∃ k b rest, s.agenda = .keyWrite k b :: rest ∧ t = keyWrite k b (s.setAgenda rest)) := by
  unfold step nextMove at h
  split at h
  · cases h
  · rename_i hrun
    refine ⟨hrun, ?_⟩
    split at h
    · rename_i hag
      exact Or.inl ⟨hag, h⟩
    · rename_i rest hag
      exact Or.inr (Or.inl ⟨rest, hag, h⟩)
    · rename_i rest hag
      exact Or.inr (Or.inr (Or.inl ⟨rest, hag, by simpa [eq_comm] using h⟩))
    · rename_i k b rest hag
      exact Or.inr (Or.inr (Or.inr ⟨k, b, rest, hag, by simpa [eq_comm] using h⟩))

/-- The cases of a step that answers a next state (R100, R102): the decoded instruction ran, or the word does not decode
and the error is told. -/
theorem tick_eq_next {s t : State} (h : tick s = .next t) :
    ∃ w, fetchWord s = .ok w ∧
      ((∃ i, decode w = .instr i ∧ exec i s = .next t) ∨
        ∃ w', decode w = .unsupported w' ∧ t = s.setReport (some (.unsupportedInstruction w'))) := by
  obtain ⟨w, hw, h⟩ := orFault_eq_next.1 h
  refine ⟨w, hw, ?_⟩
  split at h
  · rename_i i hi
    exact Or.inl ⟨i, hi, h⟩
  · rename_i w' hw'
    refine Or.inr ⟨w', hw', ?_⟩
    simpa [raiseError, eq_comm] using h

/-- The machine after a move that answers a next state is that state (R100). -/
theorem advance_of_next {s t : State} (h : step s = .next t) : advance s = t := congrArg (stateAfter s) h

/-- The machine after a move that faults (R30, R224). -/
theorem advance_of_fault {s : State} {f : Fault} (h : step s = .fault f) (hf : f ≠ .notRunning) :
    advance s = enterFaulted s := (congrArg (stateAfter s) h).trans (stateAfter_fault hf s)

/-- A faulted machine makes no move (R100, R224). -/
theorem step_of_faulted {s : State} (h : s.status = .faulted) : step s = .fault .notRunning := by
  simp [step, nextMove, h, raiseFault]

end Sys2Proof.Machine
end

