-- ==== Sys2Proof/Tests/Slice0.lean ====
section
/-! SUPPORT. Tests of the model on fixed values, and for every statement with hypotheses a state that meets them.
Expected results are from 95_test_vectors.md (named by its ids) and the tables of 30_encoding.md. -/

namespace Sys2Proof.Tests

open Sys2Proof.Machine Sys2Proof.Safety

/-! ### Helpers -/

/-- The result is a next state with the property. -/
def answer (r : Result) (p : State → Bool) : Bool :=
  match r with
  | .next t => p t
  | .fault _ => false
  | .refused _ => false

/-- The result is this fault. -/
def stops (r : Result) (f : Fault) : Bool :=
  match r with
  | .next _ => false
  | .fault g => g == f
  | .refused _ => false

/-- One step of the machine with the word `w` at its pc. -/
def run (w : Nat) (s : State) : Result := step (s.withFetchWord 16 w)

/-- The state right after reset with two registers set. -/
def regs (x : RegIdx) (a : Byte) (y : RegIdx) (b : Byte) : State := (State.reset.setV x a).setV y b

/-- A call stack of `n` equal entries. -/
def entries (n : Nat) : List Word := List.replicate n 0x202

/-! ### Well-formedness -/

theorem test_wf_accepts : (Instr.jpOff 3 0x3FF).wellFormed = true := by decide

/-- The one check there is: a JP_OFF whose `x` is not bits 11:8 of its `nnn` is refused. -/
theorem test_wf_refuses_jpOff : (Instr.jpOff 4 0x3FF).wellFormed = false := by decide

/-- Whatever the term, the encoder writes the word of the well-formed one. -/
theorem test_wf_word_of_ill_formed : decode (encode (.jpOff 4 0x3FF)) = .instr (.jpOff 3 0x3FF) := by decide

/-! ### Decoding: the words of R76 to R81, written out -/

/-- X1, V-DEC-3 and R76. -/
theorem test_decode_group0 : decode 0x00E0 = .instr .cls ∧ decode 0x00EE = .instr .ret := by decide

/-- X2, V-DEC-5, V-DEC-13, V-LDI-1 and R77. -/
theorem test_decode_nnn : decode 0x1234 = .instr (.jp 0x234) ∧ decode 0x2ABC = .instr (.call 0xABC) ∧
    decode 0xA300 = .instr (.ldI 0x300) ∧ decode 0xB3FF = .instr (.jpOff 3 0x3FF) := by decide

/-- V-DEC-6, V-SNE-1, V-LDIMM-1, V-ADDIMM-3, V-RND-1 and R78. -/
theorem test_decode_xkk : decode 0x3A7F = .instr (.seImm 10 0x7F) ∧ decode 0x4A10 = .instr (.sneImm 10 0x10) ∧
    decode 0x60EA = .instr (.ldImm 0 0xEA) ∧ decode 0x7A00 = .instr (.addImm 10 0) ∧
    decode 0xC10F = .instr (.rnd 1 0x0F) := by decide

/-- V-DEC-7 to V-DEC-9 and R79. -/
theorem test_decode_reg_skips : decode 0x5120 = .instr (.seReg 1 2) ∧ decode 0x512F = .instr (.seReg 1 2) ∧
    decode 0x9AB7 = .instr (.sneReg 10 11) := by decide

/-- R79, group 8: the selectors of the first five. -/
theorem test_decode_group8_low : decode 0x8120 = .instr (.ldReg 1 2) ∧ decode 0x8121 = .instr (.orReg 1 2) ∧
    decode 0x8122 = .instr (.andReg 1 2) ∧ decode 0x8123 = .instr (.xorReg 1 2) ∧
    decode 0x8014 = .instr (.addReg 0 1) := by decide

/-- R79, group 8: the other four, V-DEC-12 among them. -/
theorem test_decode_group8_high : decode 0x8125 = .instr (.sub 1 2) ∧ decode 0x8126 = .instr (.shr 1 2) ∧
    decode 0x8127 = .instr (.subn 1 2) ∧ decode 0x8ABE = .instr (.shl 10 11) := by decide

/-- V-DEC-14, V-DEC-15, V-SKNP-1, R80 and R81. -/
theorem test_decode_draw_and_keys : decode 0xD125 = .instr (.drw 1 2 5) ∧ decode 0xE09E = .instr (.skp 0) ∧
    decode 0xE3A1 = .instr (.sknp 3) := by decide

/-- R81, group F: V-DT-2, V-DEC-17 and the three that write a timer or `I` by addition. -/
theorem test_decode_groupF_low : decode 0xF107 = .instr (.ldVxDt 1) ∧ decode 0xF00A = .instr (.waitkey 0) ∧
    decode 0xF215 = .instr (.ldDtVx 2) ∧ decode 0xF318 = .instr (.ldStVx 3) ∧
    decode 0xF21E = .instr (.addI 2) := by decide

/-- R81, group F: V-LDF-1, V-STORE-4, V-DEC-19 and BCD. -/
theorem test_decode_groupF_high : decode 0xFA29 = .instr (.ldF 10) ∧ decode 0xF433 = .instr (.bcd 4) ∧
    decode 0xFF55 = .instr (.store 15) ∧ decode 0xFE65 = .instr (.load 14) := by decide

/-- X4 and the illegal words of V-DEC-1 to V-DEC-18. -/
theorem test_decode_illegal : decode 0xFFFF = .unsupported 0xFFFF ∧ decode 0x0000 = .unsupported 0x0000 ∧
    decode 0x00E1 = .unsupported 0x00E1 ∧ decode 0x0123 = .unsupported 0x0123 ∧
    decode 0x8AB8 = .unsupported 0x8AB8 ∧ decode 0x8ABF = .unsupported 0x8ABF ∧
    decode 0xE19F = .unsupported 0xE19F ∧ decode 0xF075 = .unsupported 0xF075 := by decide

/-- A word lies in memory high byte first (R50), and the host's question reads it so. -/
theorem test_table_word : wordBytes 0x1234 = [0x12, 0x34] ∧ decodeTableWord 16 0x1234 = some (.jp 0x234) ∧
    decodeTableWord 16 0xFFFF = none := by decide

/-! ### Fetch and the step -/

/-- V-FETCH-1. -/
theorem test_fetch_big_endian : fetchWord (State.reset.setMem [(0x200, 0x12), (0x201, 0x34)]) = .ok 0x1234 := by decide

/-- V-FETCH-2: an odd pc is no fault. -/
theorem test_fetch_odd : answer (step ((State.reset.setPc 0x201).setMem [(0x201, 0x60), (0x202, 0x07)]))
    (fun t => t.reg 0 == 7 && t.pc == 0x203) = true := by decide

/-- V-FETCH-4. -/
theorem test_fetch_beyond : stops (step (State.reset.setPc 0xFFF)) (.memoryBounds 0x1000) = true := by decide

/-- V-ERR-1. -/
theorem test_illegal_word : answer (run 0x0123 State.reset)
    (fun t => t.report == some (.unsupportedInstruction 0x0123) && t.pc == 0x200) = true := by decide

/-! ### Control transfer -/

/-- X6: clear, the jump's first half. -/
theorem test_cls : answer (run 0x00E0 ((State.reset.setFb (Display.clear true)).setV 15 1))
    (fun t => !t.pixel 63 31 && t.reg 15 == 1) = true := by decide

/-- V-JP-2. -/
theorem test_jp : answer (run 0x1FFF State.reset) (fun t => t.pc == 0xFFF) = true := by decide

/-- V-CALL-1. -/
theorem test_call : answer (run 0x2210 (State.reset.setPc 0x204)) (fun t => t.stk == [0x206] && t.pc == 0x210) = true := by
  decide

/-- V-CALL-3. -/
theorem test_call_full : answer (run 0x2300 ((State.reset.setPc 0x250).setStk (entries 16)))
    (fun t => t.report == some .stackOverflow && t.pc == 0x250) = true := by decide

/-- V-RET-3: last pushed, first popped. -/
theorem test_ret : answer (run 0x00EE ((State.reset.setPc 0x300).setStk [0x206, 0x20A]))
    (fun t => t.stk == [0x206] && t.pc == 0x20A) = true := by decide

/-- V-RET-2. -/
theorem test_ret_empty : answer (run 0x00EE State.reset)
    (fun t => t.report == some .stackUnderflow && t.pc == 0x200) = true := by decide

/-- V-JPOFF-1. -/
theorem test_jpOff_alternate : answer (run 0xB210 (regs 0 0x04 2 0x10)) (fun t => t.pc == 0x214) = true := by decide

/-- V-JPOFF-2. -/
theorem test_jpOff_chip48 : answer (run 0xB210 { regs 0 0x04 2 0x10 with chip48Jump := true })
    (fun t => t.pc == 0x220) = true := by decide

/-- V-SE-1. -/
theorem test_seImm : answer (run 0x3000 (State.reset.setPc 0x208)) (fun t => t.pc == 0x20C) = true := by decide

/-- V-SNE-1. -/
theorem test_sneImm : answer (run 0x4A10 ((State.reset.setPc 0x300).setV 10 0x10)) (fun t => t.pc == 0x302) = true := by
  decide

/-- V-SEREG-2. -/
theorem test_seReg : answer (run 0x5120 (regs 1 7 2 8)) (fun t => t.pc == 0x202) = true := by decide

/-- V-SNEREG-1. -/
theorem test_sneReg : answer (run 0x9120 (regs 1 7 2 8)) (fun t => t.pc == 0x204) = true := by decide

/-! ### Register file -/

/-- V-LDIMM-2. -/
theorem test_ldImm : answer (run 0x6F07 State.reset) (fun t => t.reg 15 == 7) = true := by decide

/-- V-ADDIMM-2: no flag on the wrap. -/
theorem test_addImm : answer (run 0x7001 (regs 0 0xFF 15 0)) (fun t => t.reg 0 == 0 && t.reg 15 == 0) = true := by decide

/-- V-LDREG-1. -/
theorem test_ldReg : answer (run 0x8010 (regs 0 0 1 0x5A)) (fun t => t.reg 0 == 0x5A) = true := by decide

/-- V-OR-1. -/
theorem test_or : answer (run 0x8011 ((regs 0 0xF0 1 0x0F).setV 15 1))
    (fun t => t.reg 0 == 0xFF && t.reg 15 == 1) = true := by decide

/-- V-AND-1. -/
theorem test_and : answer (run 0x8012 (regs 0 0xF0 1 0x3C)) (fun t => t.reg 0 == 0x30) = true := by decide

/-- V-XOR-1. -/
theorem test_xor : answer (run 0x8013 (regs 0 0xF0 1 0x3C)) (fun t => t.reg 0 == 0xCC) = true := by decide

/-- V-ADD-3. -/
theorem test_addReg_carry : answer (run 0x8014 (regs 0 200 1 56)) (fun t => t.reg 0 == 0 && t.reg 15 == 1) = true := by
  decide

/-- V-ADD-6: the result overwrites the flag. -/
theorem test_addReg_into_flag : answer (run 0x8F14 (regs 15 200 1 100)) (fun t => t.reg 15 == 44) = true := by decide

/-- V-SUB-2. -/
theorem test_sub_borrow : answer (run 0x8015 (regs 0 3 1 5)) (fun t => t.reg 0 == 254 && t.reg 15 == 0) = true := by decide

/-- V-SUB-3: equal operands give flag 0. -/
theorem test_sub_equal : answer (run 0x8015 ((regs 0 7 1 7).setV 15 1)) (fun t => t.reg 0 == 0 && t.reg 15 == 0) = true := by
  decide

/-- V-SUBN-1. -/
theorem test_subn : answer (run 0x8017 (regs 0 3 1 5)) (fun t => t.reg 0 == 2 && t.reg 15 == 1) = true := by decide

/-- V-SHR-1, legacy. -/
theorem test_shr_legacy : answer (run 0x8126 { regs 1 0xFF 2 0x05 with legacyShift := true })
    (fun t => t.reg 1 == 0x7F && t.reg 15 == 1) = true := by decide

/-- V-SHR-2, modern. -/
theorem test_shr_modern : answer (run 0x8126 (regs 1 0xFF 2 0x05)) (fun t => t.reg 1 == 0x02 && t.reg 2 == 0x05) = true := by
  decide

/-- V-SHL-1, legacy: the flag is the low bit. -/
theorem test_shl_legacy : answer (run 0x812E { regs 1 0x81 2 0x40 with legacyShift := true })
    (fun t => t.reg 1 == 0x02 && t.reg 15 == 1) = true := by decide

/-- V-SHL-2, modern. -/
theorem test_shl_modern : answer (run 0x812E (regs 1 0x81 2 0x40)) (fun t => t.reg 1 == 0x80 && t.reg 15 == 0) = true := by
  decide

/-- V-RND-2: mask 0 gives 0 whatever is drawn, and one byte is drawn. -/
theorem test_rnd_mask_zero : ∃ t, run 0xC100 State.reset = .next t ∧ t.reg 1 = 0 ∧ t.draws = 1 :=
  ⟨_, rfl, BitVec.and_zero, rfl⟩

/-! ### Index register and memory -/

/-- V-LDI-2. -/
theorem test_ldI : answer (run 0xAFFF State.reset) (fun t => t.i == 0x0FFF) = true := by decide

/-- V-ADDI-3. -/
theorem test_addI_beyond : answer (run 0xF21E ((State.reset.setI 0x0FFD).setV 2 3))
    (fun t => t.i == 0x1000 && t.reg 15 == 1) = true := by decide

/-- V-ADDI-4: the old flag register is the operand. -/
theorem test_addI_of_flag : answer (run 0xFF1E ((State.reset.setI 0x0100).setV 15 0x20))
    (fun t => t.i == 0x0120 && t.reg 15 == 0) = true := by decide

/-- V-LDF-2. -/
theorem test_ldF : answer (run 0xFA29 (State.reset.setV 10 0x1A)) (fun t => t.i == 0x0032) = true := by decide

/-- V-BCD-1. -/
theorem test_bcd : answer (run 0xF033 ((State.reset.setV 0 234).setI 0x300))
    (fun t => t.byte 0x300 == 2 && t.byte 0x301 == 3 && t.byte 0x302 == 4) = true := by decide

/-- V-BCD-6. -/
theorem test_bcd_beyond : stops (run 0xF033 (State.reset.setI 0xFFE)) (.memoryBounds 0x1000) = true := by decide

/-- V-STORE-1. -/
theorem test_store : answer (run 0xF155 (((regs 0 0x11 1 0x22).setV 2 0x33).setI 0x400))
    (fun t => t.byte 0x400 == 0x11 && t.byte 0x401 == 0x22 && t.byte 0x402 == 0 && t.i == 0x400) = true := by decide

/-- V-STORE-3. -/
theorem test_store_beyond : stops (run 0xF155 (State.reset.setI 0xFFF)) (.memoryBounds 0x1000) = true := by decide

/-- V-LOAD-1. -/
theorem test_load : answer (run 0xF265 (((regs 3 9 1 0).setI 0x300).setMem [(0x300, 2), (0x301, 3), (0x302, 4)]))
    (fun t => t.reg 0 == 2 && t.reg 1 == 3 && t.reg 2 == 4 && t.reg 3 == 9) = true := by decide

/-- V-LOAD-3. -/
theorem test_load_beyond : stops (run 0xF165 (State.reset.setI 0xFFF)) (.memoryBounds 0x1000) = true := by decide

/-! ### Display -/

/-- V-DRW-3: both axes wrap per pixel. -/
theorem test_drw_wraps : answer (run 0xD012 (((regs 0 62 1 31).setI 0x300).setMem [(0x300, 0xC0), (0x301, 0x81)]))
    (fun t => t.pixel 62 31 && t.pixel 63 31 && t.pixel 62 0 && t.pixel 5 0 && !t.pixel 0 31 && t.reg 15 == 0) = true := by
  decide

/-- V-DRW-7: one collision suffices. -/
theorem test_drw_collision : answer (run 0xD011 (((State.reset.setI 0x300).setMem [(0x300, 0xC0)]).setFb
      (Display.flip (Display.clear false) 1 0)))
    (fun t => t.pixel 0 0 && !t.pixel 1 0 && t.reg 15 == 1) = true := by decide

/-! ### Keypad, timers and the host's moves -/

/-- V-SKP-1. -/
theorem test_skp : answer (run 0xE39E ((State.reset.setV 3 0x0A).setKey 10 true)) (fun t => t.pc == 0x204) = true := by decide

/-- V-SKP-3. -/
theorem test_skp_beyond : stops (run 0xE39E (State.reset.setV 3 0x10)) (.keyIndex 16) = true := by decide

/-- V-SKNP-2. -/
theorem test_sknp : answer (run 0xE3A1 ((State.reset.setV 3 0x0A).setKey 10 true)) (fun t => t.pc == 0x202) = true := by
  decide

/-- V-WAIT-3: another key does not end the wait. -/
theorem test_waitkey_up : answer (run 0xF00A ((State.reset.setV 0 3).setKey 5 true))
    (fun t => t.pc == 0x200 && t.report == none) = true := by decide

/-- V-WAIT-2. -/
theorem test_waitkey_down : answer (run 0xF00A ((State.reset.setV 0 3).setKey 3 true))
    (fun t => t.pc == 0x202 && t.reg 0 == 3) = true := by decide

/-- V-DT-2. -/
theorem test_ldVxDt : answer (run 0xF107 (State.reset.setDt 0x3C)) (fun t => t.reg 1 == 0x3C) = true := by decide

/-- V-DT-1. -/
theorem test_ldDtVx : answer (run 0xF015 (State.reset.setV 0 0x3C)) (fun t => t.dt == 0x3C) = true := by decide

/-- V-ST-1. -/
theorem test_ldStVx : answer (run 0xF018 (State.reset.setV 0 0x05)) (fun t => t.st == 0x05) = true := by decide

/-- V-TT-1 to V-TT-3. -/
theorem test_timerTick : (timerTick (State.reset.setDt 2)).dt = 1 ∧ (timerTick (State.reset.setSt 1)).st = 0 ∧
    (timerTick State.reset).dt = 0 := by decide

/-- R242: the key written is the key a program reads. -/
theorem test_keyWrite : (keyWrite 10 true State.reset).key[10] = true ∧ (keyWrite 10 true State.reset).key[9] = false := by
  decide

/-- R241: the two reads of the host. -/
theorem test_host_reads : readTimers ((State.reset.setDt 3).setSt 4) = (3, 4) ∧
    readDisplay (State.reset.setFb (Display.clear true)) 63 31 = true := by decide

/-! ### Witnesses: for each statement with hypotheses, values that meet them, at the edges of its ranges -/

theorem witness_DecodeEncodeRoundTrip : (Instr.jpOff 15 0xFFF).wellFormed = true ∧ (Instr.drw 15 0 15).wellFormed = true := by
  decide

theorem witness_DecodedWordReencodes : decode 0x9AB7 = .instr (.sneReg 10 11) ∧ Fields.op 0x9AB7 = 9 ∧
    Fields.op 0x512F = 5 ∧ decode 0xD125 = .instr (.drw 1 2 5) ∧ Fields.op 0xD125 = 0xD := by decide

/-- One illegal word for each of the four groups that have some, and a legal one beside it. -/
theorem witness_IllegalWordsExactly : decode 0x00E1 = .unsupported 0x00E1 ∧ decode 0x00E0 = .instr .cls ∧
    decode 0x8008 = .unsupported 0x8008 ∧ decode 0x8007 = .instr (.subn 0 0) ∧ decode 0xE0A0 = .unsupported 0xE0A0 ∧
    decode 0xE0A1 = .instr (.sknp 0) ∧ decode 0xF066 = .unsupported 0xF066 ∧ decode 0xF065 = .instr (.load 0) := by decide

/-- A state whose next word is CLS, with an empty agenda and with one that asks for a step. -/
theorem witness_StepRunsDecodedInstruction :
    (State.reset.withFetchWord 16 0x00E0).status = .running ∧
    fetchWord (State.reset.withFetchWord 16 0x00E0) = .ok 0x00E0 ∧ decode 0x00E0 = .instr .cls ∧
    (State.reset.withFetchWord 16 0x00E0).agenda = [] ∧
    fetchWord ((State.reset.withFetchWord 16 0x00E0).setAgenda [.tick, .timerTick]) = .ok 0x00E0 ∧
    ((State.reset.withFetchWord 16 0x00E0).setAgenda [.tick, .timerTick]).agenda = .tick :: [.timerTick] := by decide

/-- V-FETCH-3: the last pc that fetches, and the first that does not. -/
theorem witness_FetchReadsBigEndianOrFaults :
    (State.reset.setPc 0xFFE).pc.toNat + 1 ≤ 4095 ∧ 4095 < (State.reset.setPc 0xFFF).pc.toNat + 1 := by decide

theorem witness_IllegalWordReportsError : State.reset.status = .running ∧ State.reset.agenda = [] ∧
    fetchWord State.reset = .ok 0 ∧ decode 0 = .unsupported 0 := by decide

theorem witness_HostMovesAreStepsOfTheMachine :
    (State.reset.setAgenda [.timerTick]).status = .running ∧ (State.reset.setAgenda [.timerTick]).agenda = .timerTick :: [] ∧
    (State.reset.setAgenda [.keyWrite 15 true]).agenda = .keyWrite 15 true :: [] ∧
    { State.reset with status := .faulted }.status = .faulted := by decide

/-- The invariant holds of a state with an entry on the stack. -/
theorem inv_of_entry : Inv (State.reset.setStk [4096]) :=
  ⟨⟨List.Pairwise.nil, by simp [State.setStk, State.reset, State.construct]⟩, by decide,
    by simp [State.setStk], by decide, rfl⟩

/-- A stack whose newest entry is 4095, one that meets the invariant with 4096, and the empty one. -/
theorem witness_RetPopsIntoPc : (State.reset.setStk [0x206, 4095]).stk = [0x206] ++ [4095] ∧ 4095 ≤ (4095 : Word).toNat ∧
    (State.reset.setStk [4096]).stk = [] ++ [4096] ∧ Inv (State.reset.setStk [4096]) ∧ State.reset.stk = [] :=
  ⟨rfl, by decide, rfl, inv_of_entry, rfl⟩

theorem witness_JpSetsPc : ∃ t, exec (.jp 0xFFF) State.reset = .next t ∧ stops (tick t) (.memoryBounds 0x1000) = true :=
  ⟨_, rfl, by decide⟩

/-- V-CALL-2 and V-CALL-3: 15 entries and 16. -/
theorem witness_CallPushesReturnAddress :
    (State.reset.setStk (entries 15)).stk.length < 16 ∧ (State.reset.setStk (entries 16)).stk.length = 16 := by decide

/-- Both values of the jump flag; V-JPOFF-3's largest target. -/
theorem witness_JpOffAddsRegister :
    { State.reset with chip48Jump := true }.chip48Jump = true ∧ State.reset.chip48Jump = false ∧
    answer (exec (.jpOff 15 0xFFF) (regs 0 0xFF 15 0xFF)) (fun t => t.pc == 0x10FE) = true := by decide

/-- The flag's clause of ADD_REG, SUB, SUBN, SHR and SHL holds for every destination but 15; both shift modes. -/
theorem witness_flag_clauses : (14 : RegIdx) ≠ 15 ∧ (0 : RegIdx) ≠ 15 ∧ State.reset.legacyShift = false ∧
    { State.reset with legacyShift := true }.legacyShift = true := by decide

theorem witness_ShiftsByOne : (0x05 : Nat) =
    (if (regs 1 0xFF 2 0x05).legacyShift then (regs 1 0xFF 2 0x05).reg 1 else (regs 1 0xFF 2 0x05).reg 2).toNat := by decide

/-- V-BCD-5: the last place where the digits fit. -/
theorem witness_BcdStoresDigits : (State.reset.setI 0xFFD).i.toNat + 2 ≤ 4095 := by decide

/-- V-STORE-2 and the largest block. -/
theorem witness_StoreWritesRegisterBlock : (State.reset.setI 0xFFF).i.toNat + (0 : RegIdx).val ≤ 4095 ∧
    (State.reset.setI 0xFF0).i.toNat + (15 : RegIdx).val ≤ 4095 := by decide

theorem witness_LoadReadsRegisterBlock : (State.reset.setI 0xFFF).i.toNat + (0 : RegIdx).val ≤ 4095 ∧
    (State.reset.setI 0xFF0).i.toNat + (15 : RegIdx).val ≤ 4095 := by decide

/-- The first places where BCD, STORE, LOAD and DRW do not fit. -/
theorem witness_DataAccessBeyondMemoryFaults :
    4095 < (State.reset.setI 0xFFE).i.toNat + 2 ∧ 4095 < (State.reset.setI 0xFF1).i.toNat + (15 : RegIdx).val ∧
    0 < (2 : Nibble).toNat ∧ 4095 < (State.reset.setI 0xFFF).i.toNat + (2 : Nibble).toNat - 1 := by decide

/-- V-DRW-5 and V-DRW-10: no row at all, and one row at the last address. -/
theorem witness_DrwTogglesCoveredPixels : (0 : Nibble).toNat = 0 ∧
    (State.reset.setI 0xFFF).i.toNat + (1 : Nibble).toNat - 1 ≤ 4095 := by decide

/-- V-DRW-10's state: one pixel is covered, its neighbour is not. -/
theorem witness_SpriteCovers :
    SpriteCovers ((State.reset.setI 0xFFF).setMem [(0xFFF, 0x80)]) 0 1 1 0 0 ∧
    ¬SpriteCovers ((State.reset.setI 0xFFF).setMem [(0xFFF, 0x80)]) 0 1 1 1 0 := by
  unfold SpriteCovers; decide

/-- V-DRW-1: the pixel turned on, from a clear display; the second draw starts at the same origin. -/
theorem witness_DrawingTwiceRestoresDisplay :
    ∃ t, exec (.drw 0 1 1) ((State.reset.setI 0x300).setMem [(0x300, 0x80)]) = .next t ∧
      (t.reg 0).toNat % 64 = (((State.reset.setI 0x300).setMem [(0x300, 0x80)]).reg 0).toNat % 64 ∧
      (t.reg 1).toNat % 32 = (((State.reset.setI 0x300).setMem [(0x300, 0x80)]).reg 1).toNat % 32 ∧
      State.reset.pixel 0 0 = false ∧ t.pixel 0 0 = true :=
  ⟨_, rfl, by decide, by decide, by decide, by decide⟩

/-- V-DRW-6's origin (70, 33) and the congruent (6, 1), in other registers. -/
theorem witness_CongruentOriginsDrawAlike :
    ∃ t, exec (.drw 0 1 1) (((regs 0 70 1 33).setV 2 6).setV 3 1) = .next t ∧
      ((((regs 0 70 1 33).setV 2 6).setV 3 1).reg 2).toNat % 64 =
        ((((regs 0 70 1 33).setV 2 6).setV 3 1).reg 0).toNat % 64 ∧
      ((((regs 0 70 1 33).setV 2 6).setV 3 1).reg 3).toNat % 32 =
        ((((regs 0 70 1 33).setV 2 6).setV 3 1).reg 1).toNat % 32 :=
  ⟨_, rfl, by decide, by decide⟩

theorem witness_KeySkipsAdvance : ((State.reset.setV 3 15).reg 3).toNat = (15 : Fin 16).val := by decide

theorem witness_WaitkeyHoldsPcWhileKeyUp : ((State.reset.setV 3 15).reg 3).toNat = (15 : Fin 16).val ∧
    (State.reset.setKey 15 true).key[15] = true ∧ State.reset.key[15] = false := by decide

theorem witness_KeyIndexAbove15Faults : 15 < ((State.reset.setV 3 16).reg 3).toNat := by decide

theorem witness_TimerTransfers : State.reset.reg 0 = 0 := by decide

theorem witness_StackIsBoundedLifo : (entries 16).length ≤ 16 ∧ (entries 15).length < 16 ∧ (entries 16).length = 16 := by
  decide

theorem witness_CallThenRetReturns : (State.reset.setStk (entries 15)).stk.length < 16 := by decide

/-- A step from a state that meets the invariant: RET to 4096, after which the invariant holds and the fetch would fault. -/
theorem witness_StepKeepsInvariant : Inv (State.reset.setStk [4096]) ∧ ∃ t, step (State.reset.setStk [4096]) = .next t :=
  ⟨inv_of_entry, _, rfl⟩

theorem witness_StepKeepsConfigurationFlags : ∃ t, run 0x00E0 State.reset = .next t := ⟨_, rfl⟩

/-- The largest base with one byte fits; with two it does not. -/
theorem witness_boot : (4095 : Fin 4096).val + [(0x12 : Byte)].length ≤ 4096 ∧
    4096 < (4095 : Fin 4096).val + [(0x12 : Byte), 0x00].length := by decide

theorem witness_BootMeetsInvariant : ∃ s, boot true false Config.conventionalFont 0x200 [0x12, 0x00] = some s ∧
    s.byte 0x200 = 0x12 ∧ s.byte 79 = 0x80 := ⟨_, rfl, by decide, by decide⟩

/-- A DRW may write register 15 and does not write register 0. -/
theorem witness_RegistersWrittenAsTabulated : ∃ t, exec (.drw 0 1 0) State.reset = .next t ∧
    writesReg (.drw 0 1 0) 0 = false ∧ writesReg (.drw 0 1 0) 15 = true := ⟨_, rfl, rfl, rfl⟩

/-- LD_IMM is none of the instructions that write a space. -/
theorem witness_SpacesWrittenAsTabulated : (∃ t, exec (.ldImm 0 1) State.reset = .next t) ∧
    (∀ x, Instr.ldImm 0 1 ≠ .bcd x ∧ Instr.ldImm 0 1 ≠ .store x) ∧ Instr.ldImm 0 1 ≠ .cls ∧ Instr.ldImm 0 1 ≠ .ret ∧
    (∀ x, Instr.ldImm 0 1 ≠ .ldDtVx x) ∧ (∀ x, Instr.ldImm 0 1 ≠ .ldStVx x) :=
  ⟨⟨_, rfl⟩, by simp, by simp, by simp, by simp, by simp⟩

/-- An `Ok` step with a table of increments, and a step that ends in an error. -/
theorem witness_PcMovesAsTabulated :
    (∃ t, exec (.waitkey 0) State.reset = .next t ∧ t.report = none ∧ increments (.waitkey 0) ≠ []) ∧
    ∃ t, exec .ret State.reset = .next t ∧ t.report ≠ none :=
  ⟨⟨_, rfl, rfl, by simp [increments]⟩, _, rfl, by decide⟩

theorem witness_ErrorsOnlyFromCallAndRet :
    (∃ t, exec .ret State.reset = .next t ∧ t.report = some .stackUnderflow) ∧
    ∃ t, exec (.call 0) (State.reset.setStk (entries 16)) = .next t ∧ t.report = some .stackOverflow :=
  ⟨⟨_, rfl, rfl⟩, _, rfl, rfl⟩

/-- Each of the three outcomes occurs. -/
theorem witness_FaultsOnlyFromBoundsAndKeys : (∃ t, exec .cls State.reset = .next t) ∧
    stops (exec (.load 0) (State.reset.setI 0x1000)) (.memoryBounds 0x1000) = true ∧
    stops (exec (.skp 0) (State.reset.setV 0 16)) (.keyIndex 16) = true := ⟨⟨_, rfl⟩, by decide, by decide⟩

theorem witness_FailingStepChangesNothingAndRepeats : State.reset.agenda = [] ∧
    ∃ t, step State.reset = .next t ∧ t.report = some (.unsupportedInstruction 0) := ⟨rfl, _, rfl, rfl⟩

/-- An instruction that is none of those a flag matters to, none that writes ST, and no DRW. -/
theorem witness_flags_sound_display : (∀ x nnn, Instr.cls ≠ .jpOff x nnn) ∧
    (∀ x y, Instr.cls ≠ .shr x y ∧ Instr.cls ≠ .shl x y) ∧ (∀ x, Instr.cls ≠ .ldStVx x) ∧
    ∀ x y n, Instr.cls ≠ .drw x y n := by simp

/-- V-FETCH-6: the word stored after the STORE is the next one. -/
theorem witness_StoredBytesAreFetchedNext :
    ∃ t, exec (.store 1) (((regs 0 0x12 1 0x00).setPc 0x300).setI 0x302) = .next t ∧ (1 : RegIdx) ≤ 1 ∧
      (1 : RegIdx).val = (0 : RegIdx).val + 1 ∧
      t.pc.toNat = (((regs 0 0x12 1 0x00).setPc 0x300).setI 0x302).i.toNat + (0 : RegIdx).val :=
  ⟨_, rfl, by decide, by decide, by decide⟩

/-- The last place where an instruction fits. -/
theorem witness_PlacedInstructionRunsNext : (Instr.jpOff 3 0x3FF).wellFormed = true ∧
    (State.reset.setPc 0xFFE).pc.toNat + 1 ≤ 4095 := by decide

/-- Right after reset, a jump to itself is a complete run of no step (R108). -/
theorem witness_AtSelfJump : AtSelfJump (State.reset.withFetchWord 16 0x1200) := by
  unfold AtSelfJump; decide

/-- V-FLT-1, V-FLT-2: after a bounds fault and after a key fault the status is Faulted. -/
theorem test_fault_enters_faulted : (advance (State.reset.setPc 0xFFF)).status = .faulted ∧
    (advance ((State.reset.withFetchWord 16 0xE39E).setV 3 0x10)).status = .faulted := ⟨rfl, rfl⟩

/-- An error does not change the status (R30). -/
theorem test_error_keeps_running : (advance State.reset).status = .running := rfl

/-- A running machine whose move faults, one whose move does not, and a faulted one. -/
theorem witness_StatusBecomesFaultedWhenAMoveFaults :
    (State.reset.setPc 0xFFF).status = .running ∧ step (State.reset.setPc 0xFFF) = .fault (.memoryBounds 0x1000) ∧
    (∃ t, step State.reset = .next t) ∧ { State.reset with status := .faulted }.status = .faulted :=
  ⟨rfl, rfl, ⟨_, rfl⟩, rfl⟩

end Sys2Proof.Tests
end

section
/-! The call stack as a bounded last-in first-out stack (10_state.md R35): what runs of pushes and of pops do. -/

namespace Sys2Proof.Safety

open Sys2Proof.Machine

theorem push_of_length_lt {stk : List Word} (v : Word) (h : stk.length < 16) : push v stk = .ok (stk ++ [v]) :=
  push_eq_ok.2 ⟨h, rfl⟩

theorem pop_concat (stk : List Word) (v : Word) : pop (stk ++ [v]) = .ok (v, stk) :=
  pop_eq_ok.2 rfl

/-- Pushes that fit append their values in order, whatever the stack holds before them. -/
theorem pushAll_of_length_le (stk vs : List Word) (h : stk.length + vs.length ≤ 16) :
    pushAll stk vs = .ok (stk ++ vs) := by
  induction vs generalizing stk with
  | nil => simp [pushAll]
  | cons v vs ih =>
    rw [List.length_cons] at h
    have hpush : push v stk = .ok (stk ++ [v]) := push_of_length_lt v (by omega)
    have hrest : pushAll (stk ++ [v]) vs = .ok (stk ++ [v] ++ vs) := ih _ (by simp; omega)
    simp [pushAll, hpush, hrest]

/-- As many pops as there are entries return them newest first: the induction takes the newest entry off the end. -/
theorem popAll_length (vs : List Word) : popAll vs.length vs = .ok vs.reverse := by
  induction vs using List.reverseRecOn with
  | nil => rfl
  | append_singleton vs v ih => simp [popAll, pop_concat, ih]

/-- Settles O37: pushes by induction on the values pushed, pops by induction from the newest entry, and the bounds from the
laws of `push` and `pop`. -/
theorem stackIsBoundedLifo : Obligations.StackIsBoundedLifo := by
  refine ⟨fun vs h => ⟨?_, popAll_length vs⟩, fun stk v h => ⟨push_of_length_lt v h, pop_concat stk v⟩,
    fun stk v h => push_eq_error.2 ⟨h.ge, rfl⟩, pop_eq_error.2 ⟨rfl, rfl⟩⟩
  simpa using pushAll_of_length_le [] vs (by simpa using h)

end Sys2Proof.Safety
end

section
/-! The skips (41_flow.md section 4): where the end of a skip leaves `pc`, and that it leaves the rest alone. -/

namespace Sys2Proof.Safety

open Sys2Proof.Machine

/-- The frame of the commit (R102): beside `pc` and `report`, nothing changes. -/
theorem keeps_commit (s : State) (inc : Word) : Keeps s (s.commit inc) noReg nowhere [] := by
  constructor <;> simp

/-- The end of a skip (R103): `pc` by 4 when the condition holds, else by 2, and the frame. -/
theorem skipIf_advances (c : Bool) (s : State) :
    ∃ t, skipIf c s = .next t ∧ t.pc = (if c then s.pc + 4 else s.pc + 2) ∧ t.report = none ∧
      Keeps s t noReg nowhere [] := by
  refine ⟨_, skipIf_eq c s, ?_, State.commit_report s _, keeps_commit s _⟩
  cases c <;> rfl

theorem exec_seImm (x : RegIdx) (kk : Byte) (s : State) : exec (.seImm x kk) s = skipIf (s.reg x == kk) s := rfl

theorem exec_sneImm (x : RegIdx) (kk : Byte) (s : State) : exec (.sneImm x kk) s = skipIf (s.reg x != kk) s := rfl

/-- Settles O15: both instructions are a skip, SE_IMM on `V[x] = kk` and SNE_IMM on its negation. -/
theorem immediateSkipsAdvance : Obligations.ImmediateSkipsAdvance := by
  intro x kk s
  rw [exec_seImm, exec_sneImm]
  constructor
  · simpa only [beq_iff_eq] using skipIf_advances (s.reg x == kk) s
  · simpa only [bne_iff_ne, ne_eq, ite_not] using skipIf_advances (s.reg x != kk) s

end Sys2Proof.Safety
end

section
/-! The instructions that only assign one register (42_alu.md R142 to R147): each is `V[x] <- b` and the end of the step, so
their frame is said once. -/

namespace Sys2Proof.Safety

open Sys2Proof.Machine

/-- The frame of an assignment to a register (R8). -/
theorem keeps_setV (s : State) (x : RegIdx) (b : Byte) : Keeps s (s.setV x b) (· = x) nowhere [] where
  reg _ h := State.setV_reg_other s h b
  byte _ _ := rfl
  index _ := rfl
  delay _ := rfl
  sound _ := rfl
  stack _ := rfl
  display _ _ _ := rfl
  draws _ := rfl
  key := rfl
  status := rfl
  legacyShift := rfl
  chip48Jump := rfl
  agenda := rfl

/-- The commit (R102) widens no frame: it writes `pc` and `report` only, which are outside every frame. -/
theorem Keeps.commit {s t : State} {regs : RegIdx → Prop} {bytes : Nat → Prop} {parts : List Part}
    (h : Keeps s t regs bytes parts) (inc : Word) : Keeps s (t.commit inc) regs bytes parts :=
  { h with }

/-- What ends each of these instructions: `pc` by 2, the outcome `Ok`, and no register but `x` written. -/
theorem setV_commit_advances (s : State) (x : RegIdx) (b : Byte) :
    ((s.setV x b).commit 2).pc = s.pc + 2 ∧ ((s.setV x b).commit 2).report = none ∧
      Keeps s ((s.setV x b).commit 2) (· = x) nowhere [] :=
  ⟨rfl, rfl, (keeps_setV s x b).commit 2⟩

/-- `V[x]` after the assignment and the commit. -/
theorem setV_commit_reg_same (s : State) (x : RegIdx) (b : Byte) (inc : Word) :
    ((s.setV x b).commit inc).reg x = b := by
  rw [State.commit_reg, State.setV_reg_same]

section
variable (x y : RegIdx) (kk : Byte) (s : State)

theorem exec_ldImm : exec (.ldImm x kk) s = .next ((s.setV x kk).commit 2) := rfl

theorem exec_addImm : exec (.addImm x kk) s = .next ((s.setV x (s.reg x + kk)).commit 2) := rfl

theorem exec_ldReg : exec (.ldReg x y) s = .next ((s.setV x (s.reg y)).commit 2) := rfl

theorem exec_orReg : exec (.orReg x y) s = .next ((s.setV x (s.reg x ||| s.reg y)).commit 2) := rfl

theorem exec_andReg : exec (.andReg x y) s = .next ((s.setV x (s.reg x &&& s.reg y)).commit 2) := rfl

theorem exec_xorReg : exec (.xorReg x y) s = .next ((s.setV x (s.reg x ^^^ s.reg y)).commit 2) := rfl

end

/-- Settles O17: both instructions assign `V[x]`; the sum of bytes is the sum of their values modulo 256. -/
theorem immediateLoadAndAdd : Obligations.ImmediateLoadAndAdd := by
  intro x kk s
  refine ⟨⟨_, exec_ldImm x kk s, setV_commit_reg_same s x _ 2, setV_commit_advances s x _⟩,
    ⟨_, exec_addImm x kk s, ?_, setV_commit_advances s x _⟩⟩
  rw [setV_commit_reg_same]
  exact BitVec.toNat_add (s.reg x) kk

/-- Settles O18: the four instructions assign `V[x]`; the library reads the bits of the result. -/
theorem copyAndBitwiseLogic : Obligations.CopyAndBitwiseLogic := by
  intro x y s
  refine ⟨⟨_, exec_ldReg x y s, setV_commit_reg_same s x _ 2, setV_commit_advances s x _⟩,
    ⟨_, exec_orReg x y s, fun k => ?_, setV_commit_advances s x _⟩,
    ⟨_, exec_andReg x y s, fun k => ?_, setV_commit_advances s x _⟩,
    ⟨_, exec_xorReg x y s, fun k => ?_, setV_commit_advances s x _⟩⟩
  · rw [setV_commit_reg_same, BitVec.getLsbD_or]
  · rw [setV_commit_reg_same, BitVec.getLsbD_and]
  · rw [setV_commit_reg_same, BitVec.getLsbD_xor]

end Sys2Proof.Safety
end

section
/-! The instructions that only load the index register (43_index_memory.md R170, R172): each is `I <- w` and the end of the
step. -/

namespace Sys2Proof.Safety

open Sys2Proof.Machine

/-- The frame of an assignment to the index register (R32). -/
theorem keeps_setI (s : State) (w : Word) : Keeps s (s.setI w) noReg nowhere [.index] where
  reg _ _ := rfl
  byte _ _ := rfl
  index h := absurd (List.mem_singleton_self _) h
  delay _ := rfl
  sound _ := rfl
  stack _ := rfl
  display _ _ _ := rfl
  draws _ := rfl
  key := rfl
  status := rfl
  legacyShift := rfl
  chip48Jump := rfl
  agenda := rfl

/-- What ends each of these instructions: `pc` by 2, the outcome `Ok`, and nothing written but the index register. -/
theorem setI_commit_advances (s : State) (w : Word) :
    ((s.setI w).commit 2).pc = s.pc + 2 ∧ ((s.setI w).commit 2).report = none ∧
      Keeps s ((s.setI w).commit 2) noReg nowhere [.index] :=
  ⟨rfl, rfl, (keeps_setI s w).commit 2⟩

theorem setI_commit_i (s : State) (w inc : Word) : ((s.setI w).commit inc).i = w := by
  rw [State.commit_i, State.setI_i]

/-- A glyph takes 5 bytes in a table based at 0 (R172); no glyph address reaches the 16-bit bound. -/
theorem glyphAddr_toNat (b : Byte) : (glyphAddr b).toNat = b.toNat % 16 * 5 := by
  have hbase : Config.glyphBase + b.toNat % 16 * Config.glyphStride = b.toNat % 16 * 5 := Nat.zero_add _
  rw [glyphAddr, hbase, BitVec.toNat_ofNat]
  exact Nat.mod_eq_of_lt (by omega)

theorem exec_ldI (nnn : Addr12) (s : State) : exec (.ldI nnn) s = .next ((s.setI (zext16 nnn)).commit 2) := rfl

theorem exec_ldF (x : RegIdx) (s : State) : exec (.ldF x) s = .next ((s.setI (glyphAddr (s.reg x))).commit 2) := rfl

/-- Settles O23: both instructions assign `I`, and neither the address nor the glyph's offset is cut by the 16 bits. -/
theorem indexLoads : Obligations.IndexLoads := by
  constructor
  · intro nnn s
    refine ⟨_, exec_ldI nnn s, ?_, setI_commit_advances s _⟩
    rw [setI_commit_i, zext16_toNat]
  · intro x s
    refine ⟨_, exec_ldF x s, ?_, setI_commit_advances s _⟩
    rw [setI_commit_i, glyphAddr_toNat]

end Sys2Proof.Safety
end

section
/-! CLS (44_display.md R192): the cleared framebuffer and the end of the step. -/

namespace Sys2Proof.Safety

open Sys2Proof.Machine

/-- The frame of an assignment to the framebuffer (R37). -/
theorem keeps_setFb (s : State) (d : Display) : Keeps s (s.setFb d) noReg nowhere [.display] where
  reg _ _ := rfl
  byte _ _ := rfl
  index _ := rfl
  delay _ := rfl
  sound _ := rfl
  stack _ := rfl
  display h := absurd (List.mem_singleton_self _) h
  draws _ := rfl
  key := rfl
  status := rfl
  legacyShift := rfl
  chip48Jump := rfl
  agenda := rfl

/-- The pixels after an assignment to the framebuffer and the commit are those of the framebuffer assigned. -/
theorem setFb_commit_pixel (s : State) (d : Display) (inc : Word) (cx : Fin 64) (cy : Fin 32) :
    ((s.setFb d).commit inc).pixel cx cy = Display.get d cx cy := by
  rw [State.commit_pixel, State.setFb_pixel]

theorem exec_cls (s : State) : exec .cls s = .next ((s.setFb (Display.clear false)).commit 2) := rfl

/-- Settles O29: CLS assigns the cleared framebuffer, where every pixel is off, and an assignment to the framebuffer
leaves every other part alone. -/
theorem clsTurnsEveryPixelOff : Obligations.ClsTurnsEveryPixelOff := by
  intro s
  refine ⟨_, exec_cls s, fun cx cy => ?_, State.commit_pc _ _, State.commit_report _ _, (keeps_setFb s _).commit 2⟩
  rw [setFb_commit_pixel, Display.get_clear]

end Sys2Proof.Safety
end

section
/-! The timer transfers (45_keypad_timers.md R203 to R205): each is an assignment to `V[x]`, `DT` or `ST` and the end of the
step. -/

namespace Sys2Proof.Safety

open Sys2Proof.Machine

/-- The frame of an assignment to the delay timer (R27). -/
theorem keeps_setDt (s : State) (b : Byte) : Keeps s (s.setDt b) noReg nowhere [.delay] where
  reg _ _ := rfl
  byte _ _ := rfl
  index _ := rfl
  delay h := absurd (List.mem_singleton_self _) h
  sound _ := rfl
  stack _ := rfl
  display _ _ _ := rfl
  draws _ := rfl
  key := rfl
  status := rfl
  legacyShift := rfl
  chip48Jump := rfl
  agenda := rfl

/-- The frame of an assignment to the sound timer (R28). -/
theorem keeps_setSt (s : State) (b : Byte) : Keeps s (s.setSt b) noReg nowhere [.sound] where
  reg _ _ := rfl
  byte _ _ := rfl
  index _ := rfl
  delay _ := rfl
  sound h := absurd (List.mem_singleton_self _) h
  stack _ := rfl
  display _ _ _ := rfl
  draws _ := rfl
  key := rfl
  status := rfl
  legacyShift := rfl
  chip48Jump := rfl
  agenda := rfl

theorem setDt_commit_dt (s : State) (b : Byte) (inc : Word) : ((s.setDt b).commit inc).dt = b := by
  rw [State.commit_dt, State.setDt_dt]

theorem setSt_commit_st (s : State) (b : Byte) (inc : Word) : ((s.setSt b).commit inc).st = b := by
  rw [State.commit_st, State.setSt_st]

/-- A delay timer that has reached 0 stays there at a timer event (R238). -/
theorem timerTick_dt_of_eq_zero {s : State} (h : s.dt = 0) : (timerTick s).dt = 0 := by
  rw [timerTick, State.setSt_dt, State.setDt_dt, countDown, if_pos h]

section
variable (x : RegIdx) (s : State)

theorem exec_ldVxDt : exec (.ldVxDt x) s = .next ((s.setV x s.dt).commit 2) := rfl

theorem exec_ldDtVx : exec (.ldDtVx x) s = .next ((s.setDt (s.reg x)).commit 2) := rfl

theorem exec_ldStVx : exec (.ldStVx x) s = .next ((s.setSt (s.reg x)).commit 2) := rfl

end

/-- Settles O36: the three instructions assign `V[x]`, `DT` and `ST`, and a timer event does not count a `DT` of 0 down. -/
theorem timerTransfers : Obligations.TimerTransfers := by
  intro x s
  refine ⟨⟨_, exec_ldVxDt x s, setV_commit_reg_same s x _ 2, setV_commit_advances s x _⟩,
    ⟨_, exec_ldDtVx x s, setDt_commit_dt s _ 2, State.commit_pc _ _, State.commit_report _ _,
      (keeps_setDt s _).commit 2, fun hzero => timerTick_dt_of_eq_zero ?_⟩,
    ⟨_, exec_ldStVx x s, setSt_commit_st s _ 2, State.commit_pc _ _, State.commit_report _ _,
      (keeps_setSt s _).commit 2⟩⟩
  rw [setDt_commit_dt, hzero]

end Sys2Proof.Safety
end

section
/-! The decoder and the encoder (30_encoding.md): the round trip from instructions, the round trip from words, and the
words that do not decode. -/

namespace Sys2Proof

/-! ### A word is what its fields encode (R71) -/

theorem encNNN_fields {w : Word} {op : Nibble} (h : Fields.op w = op) : encNNN op (Fields.nnn w) = w := by
  subst h
  exact (BitVec.extractLsb'_append_extractLsb'_eq_extractLsb' (x := w) (start₂ := 12) (start₁ := 0) rfl).trans
    (by simp)

theorem ofNat_toFin (b : Nibble) : BitVec.ofNat 4 b.toFin.val = b := by
  simp

/-- `x || kk` is `nnn`. -/
theorem Fields.x_append_kk (w : Word) :
    (BitVec.ofNat 4 (Fields.x w).val ++ Fields.kk w : BitVec (4 + 8)) = Fields.nnn w := by
  rw [Fields.x, ofNat_toFin]
  exact BitVec.extractLsb'_append_extractLsb'_eq_extractLsb' rfl

theorem encXKK_fields {w : Word} {op : Nibble} (h : Fields.op w = op) :
    encXKK op (Fields.x w) (Fields.kk w) = w := by
  unfold encXKK
  rw [Fields.x_append_kk]
  exact encNNN_fields h

/-- `y || n` is `kk`. -/
theorem Fields.y_append_n (w : Word) :
    (BitVec.ofNat 4 (Fields.y w).val ++ Fields.n w : BitVec (4 + 4)) = Fields.kk w := by
  rw [Fields.y, ofNat_toFin]
  exact BitVec.extractLsb'_append_extractLsb'_eq_extractLsb' rfl

theorem encXYN_fields {w : Word} {op : Nibble} (h : Fields.op w = op) :
    encXYN op (Fields.x w) (Fields.y w) (Fields.n w) = w := by
  unfold encXYN
  rw [Fields.y_append_n]
  exact encXKK_fields h

/-- The word of group `op` whose low byte is `kk`. -/
theorem encXKK_of_kk {w : Word} {op : Nibble} {kk : Byte} (h : Fields.op w = op)
    (hkk : (Fields.kk w).toNat = kk.toNat) : encXKK op (Fields.x w) kk = w :=
  BitVec.eq_of_toNat_eq hkk ▸ encXKK_fields h

/-- The word of group `op` whose low nibble is `n`. -/
theorem encXYN_of_n {w : Word} {op n : Nibble} (h : Fields.op w = op) (hn : (Fields.n w).toNat = n.toNat) :
    encXYN op (Fields.x w) (Fields.y w) n = w :=
  BitVec.eq_of_toNat_eq hn ▸ encXYN_fields h

/-- Mask FFF0 clears the low nibble of formats XY and XYN. -/
theorem encXYN_clear_low (op : Nibble) (x y : RegIdx) (n : Nibble) :
    encXYN op x y n &&& 0xFFF0 = encXYN op x y 0 := by
  have h : (0xFFF0 : Word) = ((0xF : Nibble) ++ ((0xF : Nibble) ++ ((0xF : Nibble) ++ (0 : Nibble))) :
      BitVec (4 + (4 + (4 + 4)))) := by decide
  have hones : ∀ b : Nibble, b &&& 0xF = b := fun _ => BitVec.and_allOnes
  rw [h, encXYN, BitVec.and_append, BitVec.and_append, BitVec.and_append, hones, hones, hones,
    show n &&& (0 : Nibble) = 0 from BitVec.and_zero, encXYN]

/-! ### The round trip from instructions -/

/-- Settles O2, by cases on the instruction: the group nibble, and the selector where the group has one, choose the
decoder's arm, and every operand is the field that was encoded. -/
theorem decodeEncodeRoundTrip : Obligations.DecodeEncodeRoundTrip := by
  intro i hi
  cases i with
  | cls | ret => decide
  | jpOff x nnn =>
    obtain rfl : x = Addr12.fieldX nnn := eq_of_beq hi
    simp [encode, decode, Fields.op_encNNN, Fields.x_encNNN, Fields.nnn_encNNN]
  | jp | call | ldI => simp [encode, decode, Fields.op_encNNN, Fields.nnn_encNNN]
  | seImm | sneImm | ldImm | addImm | rnd =>
    simp [encode, decode, Fields.op_encXKK, Fields.x_encXKK, Fields.kk_encXKK]
  | skp | sknp => simp [encode, decode, decodeKeys, Fields.op_encXKK, Fields.x_encXKK, Fields.kk_encXKK]
  | ldVxDt | waitkey | ldDtVx | ldStVx | addI | ldF | bcd | store | load =>
    simp [encode, decode, decodeMulti, Fields.op_encXKK, Fields.x_encXKK, Fields.kk_encXKK]
  | seReg | sneReg | drw =>
    simp [encode, decode, Fields.op_encXYN, Fields.x_encXYN, Fields.y_encXYN, Fields.n_encXYN]
  | ldReg | orReg | andReg | xorReg | addReg | sub | shr | subn | shl =>
    simp [encode, decode, decodeArith, Fields.op_encXYN, Fields.x_encXYN, Fields.y_encXYN, Fields.n_encXYN]

/-- Settles O1: twelve closed words. -/
theorem decodeReadsSpecWords : Obligations.DecodeReadsSpecWords := by
  unfold Obligations.DecodeReadsSpecWords
  decide

/-! ### The round trip from words -/

/-- `i` is well formed and its word is `w`, but for the nibble that groups 5 and 9 ignore (R79, decision D6). -/
def Reencodes (w : Word) (i : Instr) : Prop :=
  i.wellFormed = true ∧ encode i = if Fields.op w = 5 ∨ Fields.op w = 9 then w &&& 0xFFF0 else w

/-- Outside groups 5 and 9 nothing is ignored. -/
theorem reencodes_of_encode_eq {w : Word} {i : Instr} (hi : i.wellFormed = true) (hw : encode i = w)
    {op : Nibble} (h : Fields.op w = op) (h5 : op ≠ 5 := by decide) (h9 : op ≠ 9 := by decide) : Reencodes w i :=
  ⟨hi, by rw [hw, h, if_neg (not_or.2 ⟨h5, h9⟩)]⟩

theorem decodeSystem_reencodes {w : Word} {i : Instr} (h : Fields.op w = 0) (hi : decodeSystem w = .instr i) :
    Reencodes w i := by
  unfold decodeSystem at hi
  split at hi
  · cases hi
    exact reencodes_of_encode_eq rfl (Eq.symm ‹_›) h
  · split at hi
    · cases hi
      exact reencodes_of_encode_eq rfl (Eq.symm ‹_›) h
    · cases hi

theorem decodeArith_reencodes {w : Word} {i : Instr} (h : Fields.op w = 8) (hi : decodeArith w = .instr i) :
    Reencodes w i := by
  unfold decodeArith at hi
  split at hi
  case h_10 => cases hi
  all_goals
    cases hi
    exact reencodes_of_encode_eq rfl (encXYN_of_n h ‹_›) h

theorem decodeKeys_reencodes {w : Word} {i : Instr} (h : Fields.op w = 0xE) (hi : decodeKeys w = .instr i) :
    Reencodes w i := by
  unfold decodeKeys at hi
  split at hi
  case h_3 => cases hi
  all_goals
    cases hi
    exact reencodes_of_encode_eq rfl (encXKK_of_kk h ‹_›) h

theorem decodeMulti_reencodes {w : Word} {i : Instr} (h : Fields.op w = 0xF) (hi : decodeMulti w = .instr i) :
    Reencodes w i := by
  unfold decodeMulti at hi
  split at hi
  case h_10 => cases hi
  all_goals
    cases hi
    exact reencodes_of_encode_eq rfl (encXKK_of_kk h ‹_›) h

theorem Fields.fieldX_nnn (w : Word) : Addr12.fieldX (Fields.nnn w) = Fields.x w := by
  rw [← Fields.x_encNNN (Fields.op w), encNNN_fields rfl]

/-- Groups 5 and 9 encode back to the word without its low nibble (R79). -/
theorem reencodes_of_clear_low {w : Word} {i : Instr} (hi : i.wellFormed = true) {op : Nibble} (h : Fields.op w = op)
    (hop : op = 5 ∨ op = 9) (hw : encode i = encXYN op (Fields.x w) (Fields.y w) 0) : Reencodes w i := by
  refine ⟨hi, ?_⟩
  rw [h, if_pos hop, hw, ← encXYN_clear_low op _ _ (Fields.n w), encXYN_fields h]

/-- What the decoder does with a word (R73): the four groups that have illegal words answer by a table of their own, and
in every other group each word decodes, to an instruction that encodes to it. -/
theorem decode_cases (w : Word) :
    (Fields.op w = 0 ∧ decode w = decodeSystem w) ∨ (Fields.op w = 8 ∧ decode w = decodeArith w) ∨
    (Fields.op w = 0xE ∧ decode w = decodeKeys w) ∨ (Fields.op w = 0xF ∧ decode w = decodeMulti w) ∨
    (Fields.op w ∉ ([0, 8, 0xE, 0xF] : List Nibble) ∧ ∃ i, decode w = .instr i ∧ Reencodes w i) := by
  have hop : ∀ {k : Nat}, (Fields.op w).toNat = k → Fields.op w = BitVec.ofNat 4 k := by
    rintro _ rfl
    simp
  have legal : ∀ {k : Nat} {i : Instr}, (Fields.op w).toNat = k →
      BitVec.ofNat 4 k ∉ ([0, 8, 0xE, 0xF] : List Nibble) → (Fields.op w = BitVec.ofNat 4 k → Reencodes w i) →
      Fields.op w ∉ ([0, 8, 0xE, 0xF] : List Nibble) ∧ ∃ j, Decoded.instr i = .instr j ∧ Reencodes w j :=
    fun h hmem hre => ⟨hop h ▸ hmem, _, rfl, hre (hop h)⟩
  unfold decode
  split
  case h_1 h => exact .inl ⟨hop h, rfl⟩
  case h_9 h => exact .inr (.inl ⟨hop h, rfl⟩)
  case h_15 h => exact .inr (.inr (.inl ⟨hop h, rfl⟩))
  case h_16 h =>
    have hF : (Fields.op w).toNat = 15 := by
      simp only [imp_false] at *
      omega
    exact .inr (.inr (.inr (.inl ⟨hop hF, rfl⟩)))
  all_goals refine .inr (.inr (.inr (.inr (legal ‹_› (by decide) fun h => ?_))))
  case h_2 | h_3 | h_11 => exact reencodes_of_encode_eq rfl (encNNN_fields h) h
  case h_12 => exact reencodes_of_encode_eq (beq_iff_eq.2 (Fields.fieldX_nnn w).symm) (encNNN_fields h) h
  case h_4 | h_5 | h_7 | h_8 | h_13 => exact reencodes_of_encode_eq rfl (encXKK_fields h) h
  case h_6 | h_10 => exact reencodes_of_clear_low rfl h (by decide) rfl
  case h_14 => exact reencodes_of_encode_eq rfl (encXYN_fields h) h

/-- Settles O3, by the group of the word. -/
theorem decodedWordReencodes : Obligations.DecodedWordReencodes := by
  intro w i hi
  obtain ⟨hop, h⟩ | ⟨hop, h⟩ | ⟨hop, h⟩ | ⟨hop, h⟩ | ⟨-, j, h, hj⟩ := decode_cases w
  · exact decodeSystem_reencodes hop (h ▸ hi)
  · exact decodeArith_reencodes hop (h ▸ hi)
  · exact decodeKeys_reencodes hop (h ▸ hi)
  · exact decodeMulti_reencodes hop (h ▸ hi)
  · rw [h] at hi
    cases hi
    exact hj

/-! ### The illegal words -/

theorem decodeSystem_eq_unsupported {w w' : Word} :
    decodeSystem w = .unsupported w' ↔ w' = w ∧ w ≠ 0x00E0 ∧ w ≠ 0x00EE := by
  unfold decodeSystem
  split
  · simp [*]
  · split <;> simp_all [eq_comm]

theorem decodeArith_eq_unsupported {w w' : Word} :
    decodeArith w = .unsupported w' ↔ w' = w ∧ 8 ≤ (Fields.n w).toNat ∧ Fields.n w ≠ 0xE := by
  rw [ne_eq, ← BitVec.toNat_inj (x := Fields.n w)]
  unfold decodeArith
  split
  case h_10 =>
    simp only [imp_false] at *
    have hn : 8 ≤ (Fields.n w).toNat := by omega
    simp [*, @eq_comm _ w w']
  all_goals simp [*]

theorem decodeKeys_eq_unsupported {w w' : Word} :
    decodeKeys w = .unsupported w' ↔ w' = w ∧ Fields.kk w ≠ 0x9E ∧ Fields.kk w ≠ 0xA1 := by
  simp only [ne_eq, ← BitVec.toNat_inj (x := Fields.kk w)]
  unfold decodeKeys
  split
  case h_3 =>
    simp only [imp_false] at *
    simp [*, @eq_comm _ w w']
  all_goals simp [*]

theorem decodeMulti_eq_unsupported {w w' : Word} :
    decodeMulti w = .unsupported w' ↔
      w' = w ∧ Fields.kk w ∉ ([0x07, 0x0A, 0x15, 0x18, 0x1E, 0x29, 0x33, 0x55, 0x65] : List Byte) := by
  simp only [List.mem_cons, List.not_mem_nil, or_false, not_or, ← BitVec.toNat_inj (x := Fields.kk w)]
  unfold decodeMulti
  split
  case h_10 =>
    simp only [imp_false] at *
    simp [*, @eq_comm _ w w']
  all_goals simp [*]

/-- Settles O4, by the group of the word: each of the four groups with illegal words has its own table, and outside them
every word decodes. -/
theorem illegalWordsExactly : Obligations.IllegalWordsExactly := by
  intro w w'
  obtain ⟨hop, h⟩ | ⟨hop, h⟩ | ⟨hop, h⟩ | ⟨hop, h⟩ | ⟨hop, i, h, -⟩ := decode_cases w
  · rw [h, decodeSystem_eq_unsupported]; simp [hop]
  · rw [h, decodeArith_eq_unsupported]; simp [hop]
  · rw [h, decodeKeys_eq_unsupported]; simp [hop]
  · rw [h, decodeMulti_eq_unsupported]; simp [hop]
  · simp only [List.mem_cons, List.not_mem_nil, or_false, not_or] at hop
    obtain ⟨h0, h8, hE, hF⟩ := hop
    simp only [h, reduceCtorEq, h0, h8, hE, hF, false_and, or_false, and_false]

end Sys2Proof
end

section
/-! What every instruction that answers a next state leaves alone (10_state.md sections 1, 4, 5 and 6), and how its step
ends (40_cycle.md sections 2 and 3; 60_exceptions.md section 1). Every move keeps the invariant by these two. -/

namespace Sys2Proof.Safety

open Sys2Proof.Machine

/-! ### A property of the next state, when there is one -/

/-- If the result is a next state, that state has the property. -/
def Ensures (P : State → Prop) : Result → Prop
  | .next t => P t
  | .fault _ => True
  | .refused _ => True

theorem Ensures.of_eq_next {P : State → Prop} {r : Result} {t : State} (h : Ensures P r) (hr : r = .next t) : P t := by
  subst hr
  exact h

theorem ensures_orFault {α : Type} {P : State → Prop} {r : Except Fault α} {k : α → Result}
    (h : ∀ a, r = .ok a → Ensures P (k a)) : Ensures P (orFault r k) := by
  cases r with
  | ok a => exact h a rfl
  | error f => trivial

theorem ensures_orError {α : Type} {P : State → Prop} {s : State} {r : Except StepError α} {k : α → Result}
    (hok : ∀ a, r = .ok a → Ensures P (k a)) (herr : ∀ e, r = .error e → P (s.setReport (some e))) :
    Ensures P (orError s r k) := by
  cases r with
  | ok a => exact hok a rfl
  | error e => exact herr e rfl

/-! ### Blocks that were read or written -/

/-- The bytes of a block read that answers. -/
theorem readBlock_eq_ok {m : Memory} {a n : Nat} {bs : List Byte} (h : readBlock m a n = .ok bs) :
    bs = (List.range n).map fun k => Memory.read m (a + k) := by
  by_cases hfit : a + n ≤ 4096
  · rw [readBlock_fits m n a hfit] at h
    exact (Except.ok.inj h).symm
  · obtain _ | n := n
    · exact (Except.ok.inj h).symm
    · rw [readBlock_beyond m (n + 1) a n.succ_pos (by omega)] at h
      cases h

theorem readBlock_length {m : Memory} {a n : Nat} {bs : List Byte} (h : readBlock m a n = .ok bs) : bs.length = n := by
  simp [readBlock_eq_ok h]

/-- A block write that answers keeps the canonical form (R36). -/
theorem writeBlock_wf {m m' : Memory} {a : Nat} {bs : List Byte} (h : writeBlock m a bs = .ok m')
    (hm : Memory.wf m) : Memory.wf m' := by
  by_cases hfit : a + bs.length ≤ 4096
  · obtain ⟨m'', hw, -, hwf⟩ := writeBlock_fits bs m a hfit
    rw [hw] at h
    exact Except.ok.inj h ▸ hwf hm
  · cases bs with
    | nil => exact Except.ok.inj h ▸ hm
    | cons b bs =>
      rw [writeBlock_beyond (b :: bs) m a (Nat.succ_pos _) (by omega)] at h
      cases h

/-! ### What an instruction leaves alone -/

/-- From `s` to `t` nothing changed but `pc`, `report`, `draws` and what the spec's tables let the instruction write. -/
structure WritesOnly (i : Instr) (s t : State) : Prop where
  reg : ∀ r, writesReg i r = false → t.reg r = s.reg r
  mem : (∀ x, i ≠ .bcd x ∧ i ≠ .store x) → t.mem = s.mem
  fb : (i ≠ .cls ∧ ∀ x y n, i ≠ .drw x y n) → t.fb = s.fb
  stk : (i ≠ .ret ∧ ∀ nnn, i ≠ .call nnn) → t.stk = s.stk
  index : (∀ nnn x, i ≠ .ldI nnn ∧ i ≠ .addI x ∧ i ≠ .ldF x) → t.i = s.i
  dt : (∀ x, i ≠ .ldDtVx x) → t.dt = s.dt
  st : (∀ x, i ≠ .ldStVx x) → t.st = s.st
  key : t.key = s.key
  status : t.status = s.status
  agenda : t.agenda = s.agenda
  legacyShift : t.legacyShift = s.legacyShift
  chip48Jump : t.chip48Jump = s.chip48Jump

section
variable {i : Instr} {s t : State}

theorem WritesOnly.refl (i : Instr) (s : State) : WritesOnly i s s := by
  constructor <;> intros <;> rfl

theorem WritesOnly.setReport (h : WritesOnly i s t) (r : Option StepError) : WritesOnly i s (t.setReport r) :=
  { h with }

theorem WritesOnly.setPc (h : WritesOnly i s t) (w : Word) : WritesOnly i s (t.setPc w) := { h with }

theorem WritesOnly.setDraws (h : WritesOnly i s t) (n : Nat) : WritesOnly i s (t.setDraws n) := { h with }

theorem WritesOnly.commit (h : WritesOnly i s t) (inc : Word) : WritesOnly i s (t.commit inc) := (h.setPc _).setReport _

theorem WritesOnly.setV (h : WritesOnly i s t) {x : RegIdx} (hx : writesReg i x = true) (b : Byte) :
    WritesOnly i s (t.setV x b) :=
  { h with
    reg := fun r hr => by
      have hne : r ≠ x := fun hrx => by simp [hrx, hx] at hr
      rw [State.setV_reg_other t hne, h.reg r hr] }

theorem WritesOnly.setFlagThen (h : WritesOnly i s t) {x : RegIdx} (hx : writesReg i x = true)
    (hf : writesReg i Config.flagReg = true) (flag b : Byte) : WritesOnly i s (t.setFlagThen flag x b) :=
  (h.setV hf flag).setV hx b

theorem WritesOnly.setRegs (h : WritesOnly i s t) {v : Vector Byte 16}
    (hv : ∀ r : RegIdx, writesReg i r = false → v[r.val] = t.reg r) : WritesOnly i s (t.setRegs v) :=
  { h with reg := fun r hr => (hv r hr).trans (h.reg r hr) }

theorem WritesOnly.setMem (h : WritesOnly i s t) (hi : ∃ x, i = .bcd x ∨ i = .store x) (m : Memory) :
    WritesOnly i s (t.setMem m) :=
  { h with mem := fun hne => (by obtain ⟨x, hx⟩ := hi; exact absurd hx (not_or.2 (hne x))) }

theorem WritesOnly.setFb (h : WritesOnly i s t) (hi : i = .cls ∨ ∃ x y n, i = .drw x y n) (d : Display) :
    WritesOnly i s (t.setFb d) :=
  { h with fb := fun hne => (by
      obtain hi | ⟨x, y, n, hi⟩ := hi
      · exact absurd hi hne.1
      · exact absurd hi (hne.2 x y n)) }

theorem WritesOnly.setStk (h : WritesOnly i s t) (hi : i = .ret ∨ ∃ nnn, i = .call nnn) (l : List Word) :
    WritesOnly i s (t.setStk l) :=
  { h with stk := fun hne => (by
      obtain hi | ⟨nnn, hi⟩ := hi
      · exact absurd hi hne.1
      · exact absurd hi (hne.2 nnn)) }

theorem WritesOnly.setI (h : WritesOnly i s t) (hi : ∃ nnn x, i = .ldI nnn ∨ i = .addI x ∨ i = .ldF x) (w : Word) :
    WritesOnly i s (t.setI w) :=
  { h with index := fun hne => (by
      obtain ⟨nnn, x, hi⟩ := hi
      exact absurd hi (by simpa using hne nnn x)) }

theorem WritesOnly.setDt (h : WritesOnly i s t) (hi : ∃ x, i = .ldDtVx x) (b : Byte) : WritesOnly i s (t.setDt b) :=
  { h with dt := fun hne => (by obtain ⟨x, hi⟩ := hi; exact absurd hi (hne x)) }

theorem WritesOnly.setSt (h : WritesOnly i s t) (hi : ∃ x, i = .ldStVx x) (b : Byte) : WritesOnly i s (t.setSt b) :=
  { h with st := fun hne => (by obtain ⟨x, hi⟩ := hi; exact absurd hi (hne x)) }

end

/-- Every instruction keeps to the tables (10_state.md sections 1 and 6). -/
theorem exec_writesOnly (i : Instr) (s : State) : Ensures (WritesOnly i s) (exec i s) := by
  have refl := WritesOnly.refl i s
  cases i with
  | jp | jpOff => exact (refl.setPc _).commit 0
  | seImm | sneImm | seReg | sneReg => exact refl.commit _
  | ldImm | addImm | ldReg | orReg | andReg | xorReg | ldVxDt => exact (refl.setV (beq_self_eq_true _) _).commit 2
  | rnd => exact ((refl.setV (beq_self_eq_true _) _).setDraws _).commit 2
  | addReg | sub | subn | shr | shl =>
    exact (refl.setFlagThen (by simp [writesReg]) (by simp [writesReg]) _ _).commit 2
  | cls => exact (refl.setFb (.inl rfl) _).commit 2
  | drw x y n =>
    exact ensures_orFault fun _ _ =>
      ((refl.setFb (.inr ⟨x, y, n, rfl⟩) _).setV (beq_self_eq_true _) _).commit 2
  | ldI nnn => exact (refl.setI ⟨nnn, 0, .inl rfl⟩ _).commit 2
  | addI x => exact ((refl.setI ⟨0, x, .inr (.inl rfl)⟩ _).setV (beq_self_eq_true _) _).commit 2
  | ldF x => exact (refl.setI ⟨0, x, .inr (.inr rfl)⟩ _).commit 2
  | bcd x => exact ensures_orFault fun m _ => (refl.setMem ⟨x, .inl rfl⟩ m).commit 2
  | store x => exact ensures_orFault fun m _ => (refl.setMem ⟨x, .inr rfl⟩ m).commit 2
  | load x =>
    refine ensures_orFault fun bs hbs => (refl.setRegs fun r hr => ?_).commit 2
    have hlt : ¬r.val < bs.length := by
      rw [readBlock_length hbs, Nat.lt_succ_iff]
      exact of_decide_eq_false hr
    rw [fillRegs_get, dif_neg (fun h => hlt h.2)]
    rfl
  | ldDtVx x => exact (refl.setDt ⟨x, rfl⟩ _).commit 2
  | ldStVx x => exact (refl.setSt ⟨x, rfl⟩ _).commit 2
  | skp | sknp | waitkey => exact ensures_orFault fun _ _ => refl.commit _
  | ret =>
    exact ensures_orError (fun _ _ => ((refl.setStk (.inl rfl) _).setPc _).commit 0) fun _ _ => refl.setReport _
  | call nnn =>
    exact ensures_orError (fun _ _ => ((refl.setStk (.inr ⟨nnn, rfl⟩) _).setPc _).commit 0) fun _ _ => refl.setReport _

/-- Settles O45: the registers of the frame. -/
theorem registersWrittenAsTabulated : Obligations.RegistersWrittenAsTabulated := by
  intro i s t r h hr
  exact ((exec_writesOnly i s).of_eq_next h).reg r hr

/-- Settles O46: the spaces of the frame. -/
theorem spacesWrittenAsTabulated : Obligations.SpacesWrittenAsTabulated := by
  intro i s t h
  have hw := (exec_writesOnly i s).of_eq_next h
  exact ⟨hw.mem, hw.fb, hw.stk, hw.index, hw.dt, hw.st, hw.key, hw.status, hw.agenda⟩

/-! ### How the step of an instruction ends -/

/-- The three ends of an instruction that answers a next state: `pc` advanced by an increment of the table (R103), `pc`
set by one of the four jumps, to a return address or to a target of bounded size (R121 to R124), or an error (R222,
R223). -/
inductive StepEnd (i : Instr) (s t : State) : Prop where
  | advanced {inc : Word} (hinc : inc ∈ increments i) (hpc : t.pc = s.pc + inc) (hreport : t.report = none)
  | jumped (hi : increments i = []) (hpc : t.pc.toNat ≤ 0x10FE ∨ t.pc ∈ s.stk) (hreport : t.report = none)
  | failed {e : StepError} (ht : t = s.setReport (some e))
    (hcause : (i = .ret ∧ s.stk = [] ∧ e = .stackUnderflow) ∨
      ∃ nnn, i = .call nnn ∧ 16 ≤ s.stk.length ∧ e = .stackOverflow)

theorem stepEnd_jumpTo {i : Instr} {s u : State} {target : Word} (hi : increments i = [])
    (htarget : target.toNat ≤ 0x10FE ∨ target ∈ s.stk) : Ensures (StepEnd i s) (jumpTo target u) := by
  rw [jumpTo_eq]
  exact .jumped hi htarget rfl

theorem stepEnd_skipIf {i : Instr} {s : State} (hi : increments i = [2, 4]) (c : Bool) :
    Ensures (StepEnd i s) (skipIf c s) := by
  refine .advanced (inc := if c then 4 else 2) ?_ rfl rfl
  cases c <;> simp [hi]

theorem zext16_le (nnn : Addr12) : (zext16 nnn).toNat ≤ 4095 := by
  rw [zext16_toNat]
  omega

/-- The target of JP_OFF: a byte plus a 12-bit offset, never cut by the 16 bits (R124). -/
theorem offsetTarget_toNat (b : Byte) (nnn : Addr12) : (b.setWidth 16 + zext16 nnn).toNat = b.toNat + nnn.toNat := by
  rw [BitVec.toNat_add, zext16_toNat, BitVec.toNat_setWidth]
  omega

/-- Every instruction that answers a next state ends in one of the three ways. -/
theorem exec_stepEnd (i : Instr) (s : State) : Ensures (StepEnd i s) (exec i s) := by
  cases i with
  | jp nnn => exact stepEnd_jumpTo rfl (.inl ((zext16_le nnn).trans (by decide)))
  | jpOff x nnn =>
    refine stepEnd_jumpTo rfl (.inl ?_)
    rw [offsetTarget_toNat]
    omega
  | ret =>
    refine ensures_orError (fun p hp => stepEnd_jumpTo rfl (.inr ?_)) fun e he => ?_
    · simp [pop_eq_ok.1 hp]
    · exact .failed rfl (.inl ⟨rfl, pop_eq_error.1 he⟩)
  | call nnn =>
    refine ensures_orError (fun _ _ => stepEnd_jumpTo rfl (.inl ((zext16_le nnn).trans (by decide)))) fun e he => ?_
    exact .failed rfl (.inr ⟨nnn, rfl, push_eq_error.1 he⟩)
  | seImm | sneImm | seReg | sneReg => exact stepEnd_skipIf rfl _
  | skp | sknp => exact ensures_orFault fun _ _ => stepEnd_skipIf rfl _
  | waitkey =>
    refine ensures_orFault fun down _ => .advanced (inc := if down then 2 else 0) ?_ rfl rfl
    cases down <;> simp [increments]
  | drw | bcd | store | load =>
    exact ensures_orFault fun _ _ => .advanced (List.mem_singleton_self 2) rfl rfl
  | _ => exact .advanced (List.mem_singleton_self 2) rfl rfl

/-- Settles O47, by the three ends. -/
theorem pcMovesAsTabulated : Obligations.PcMovesAsTabulated := by
  intro i s t h
  cases (exec_stepEnd i s).of_eq_next h with
  | advanced hinc hpc hreport => exact ⟨fun _ _ => ⟨_, hinc, hpc⟩, fun hne => absurd hreport hne⟩
  | jumped hi _ hreport => exact ⟨fun _ hne => absurd hi hne, fun hne => absurd hreport hne⟩
  | failed ht _ =>
    subst ht
    exact ⟨fun hnone => by simp at hnone, fun _ => rfl⟩

/-- Settles O48: of the three ends only an error sets `report`. -/
theorem errorsOnlyFromCallAndRet : Obligations.ErrorsOnlyFromCallAndRet := by
  intro i s t e h he
  cases (exec_stepEnd i s).of_eq_next h with
  | advanced _ _ hreport => simp [hreport] at he
  | jumped _ _ hreport => simp [hreport] at he
  | failed ht hcause =>
    subst ht
    obtain rfl := Option.some.inj he
    exact ⟨rfl, hcause⟩

/-! ### Every move keeps the configuration flags and the status -/

/-- A requested step that answers a next state changes neither the flags (R29) nor the status (R30). -/
theorem tick_keeps_flags_status {s t : State} (h : tick s = .next t) :
    t.legacyShift = s.legacyShift ∧ t.chip48Jump = s.chip48Jump ∧ t.status = s.status := by
  obtain ⟨w, -, ⟨i, -, hexec⟩ | ⟨w', -, rfl⟩⟩ := tick_eq_next h
  · have hw := (exec_writesOnly i s).of_eq_next hexec
    exact ⟨hw.legacyShift, hw.chip48Jump, hw.status⟩
  · exact ⟨rfl, rfl, rfl⟩

/-- Nor does any other move. -/
theorem step_keeps_flags_status {s t : State} (h : step s = .next t) :
    t.legacyShift = s.legacyShift ∧ t.chip48Jump = s.chip48Jump ∧ t.status = s.status := by
  obtain ⟨-, ⟨-, htick⟩ | ⟨rest, -, htick⟩ | ⟨rest, -, rfl⟩ | ⟨k, b, rest, -, rfl⟩⟩ := step_eq_next h
  · exact tick_keeps_flags_status htick
  · exact tick_keeps_flags_status (s := s.setAgenda rest) htick
  · exact ⟨rfl, rfl, rfl⟩
  · exact ⟨rfl, rfl, rfl⟩

/-- Settles O42: the flags are in the frame of every move. -/
theorem stepKeepsConfigurationFlags : Obligations.StepKeepsConfigurationFlags := by
  intro s t h
  obtain ⟨hlegacy, hchip48, -⟩ := step_keeps_flags_status h
  exact ⟨hlegacy, hchip48⟩

/-! ### The invariant -/

theorem exec_memory_wf (i : Instr) {s : State} (hs : Memory.wf s.mem) :
    Ensures (fun t => Memory.wf t.mem) (exec i s) := by
  cases i with
  | bcd | store => exact ensures_orFault fun _ hm => writeBlock_wf hm hs
  | drw | load | skp | sknp | waitkey => exact ensures_orFault fun _ _ => hs
  | ret | call => exact ensures_orError (fun _ _ => hs) fun _ _ => hs
  | _ => exact hs

/-- The call stack stays within its bound, and only CALL's return address is new on it (R35, R123). -/
theorem exec_stack (i : Instr) {s : State} (hs : s.stk.length ≤ 16) :
    Ensures (fun t => t.stk.length ≤ 16 ∧ ∀ a ∈ t.stk, a ∈ s.stk ∨ a = s.pc + 2) (exec i s) := by
  have same : s.stk.length ≤ 16 ∧ ∀ a ∈ s.stk, a ∈ s.stk ∨ a = s.pc + 2 := ⟨hs, fun _ => .inl⟩
  cases i with
  | ret =>
    refine ensures_orError (fun p hp => ?_) fun _ _ => same
    have hstk : s.stk = p.2 ++ [p.1] := pop_eq_ok.1 hp
    show p.2.length ≤ 16 ∧ ∀ a ∈ p.2, a ∈ s.stk ∨ a = s.pc + 2
    rw [hstk, List.length_append] at hs
    exact ⟨by omega, fun a ha => .inl (by rw [hstk]; exact List.mem_append_left _ ha)⟩
  | call =>
    refine ensures_orError (fun l hl => ?_) fun _ _ => same
    obtain ⟨hlt, rfl⟩ := push_eq_ok.1 hl
    show (s.stk ++ [s.pc + 2]).length ≤ 16 ∧ ∀ a ∈ s.stk ++ [s.pc + 2], a ∈ s.stk ∨ a = s.pc + 2
    simp [Nat.succ_le_of_lt hlt]
  | bcd | store | drw | load | skp | sknp | waitkey => exact ensures_orFault fun _ _ => same
  | _ => exact same

/-- The fetch needs two bytes below 4096 (R53). -/
theorem fetchWord_eq_ok {s : State} {w : Word} (h : fetchWord s = .ok w) : s.pc.toNat + 1 ≤ 4095 :=
  (memRead2_eq_ok.1 h).1

theorem increments_le {i : Instr} {inc : Word} (h : inc ∈ increments i) : inc.toNat ≤ 4 := by
  have hsub : increments i ⊆ [0, 2, 4] := by cases i <;> simp [increments]
  have hle : ∀ inc ∈ ([0, 2, 4] : List Word), inc.toNat ≤ 4 := by simp
  exact hle inc (hsub h)

/-- One instruction keeps the invariant, from a `pc` that could be fetched from. -/
theorem exec_keeps_inv {i : Instr} {s t : State} (hs : Inv s) (hpc : s.pc.toNat + 1 ≤ 4095) (h : exec i s = .next t) :
    Inv t := by
  obtain ⟨hmem, hlen, hstk, -, hrun⟩ := hs
  obtain ⟨hlen', hstk'⟩ := (exec_stack i hlen).of_eq_next h
  refine ⟨(exec_memory_wf i hmem).of_eq_next h, hlen', fun a ha => ?_, ?_, ?_⟩
  · obtain hold | rfl := hstk' a ha
    · exact hstk a hold
    · have hret : (s.pc + 2).toNat = s.pc.toNat + 2 := by bv_omega
      omega
  · cases (exec_stepEnd i s).of_eq_next h with
    | advanced hinc hadv _ =>
      have := increments_le hinc
      rw [hadv]
      bv_omega
    | jumped _ htarget _ =>
      obtain hle | hret := htarget
      · exact hle
      · exact (hstk _ hret).2.trans (by decide)
    | failed ht _ =>
      subst ht
      rw [State.setReport_pc]
      omega
  · rw [((exec_writesOnly i s).of_eq_next h).status, hrun]

theorem tick_keeps_inv {s t : State} (hs : Inv s) (h : tick s = .next t) : Inv t := by
  obtain ⟨w, hw, ⟨i, -, hexec⟩ | ⟨w', -, rfl⟩⟩ := tick_eq_next h
  · exact exec_keeps_inv hs (fetchWord_eq_ok hw) hexec
  · exact hs

/-- Settles O39: a requested step by the lemmas about its instruction; a timer event, a key write and the agenda touch
nothing of the invariant. -/
theorem stepKeepsInvariant : Obligations.StepKeepsInvariant := by
  intro s t hs h
  obtain ⟨-, ⟨-, htick⟩ | ⟨rest, -, htick⟩ | ⟨rest, -, rfl⟩ | ⟨k, b, rest, -, rfl⟩⟩ := step_eq_next h
  · exact tick_keeps_inv hs htick
  · exact tick_keeps_inv (s := s.setAgenda rest) hs htick
  · exact hs
  · exact hs

end Sys2Proof.Safety
end

section
/-! Which move the machine makes next (40_cycle.md sections 1 and 2), one equation for each case of the agenda and of
the decoder's answer. -/

namespace Sys2Proof.Safety

open Sys2Proof.Machine

variable {s : State} {rest : List HostMove}

theorem step_of_agenda_nil (hrun : s.status = .running) (hag : s.agenda = []) : step s = tick s := by
  simp [step, nextMove, hrun, hag]

theorem step_of_agenda_tick (hrun : s.status = .running) (hag : s.agenda = .tick :: rest) :
    step s = tick (s.setAgenda rest) := by
  simp [step, nextMove, hrun, hag]

theorem step_of_agenda_timerTick (hrun : s.status = .running) (hag : s.agenda = .timerTick :: rest) :
    step s = .next (timerTick (s.setAgenda rest)) := by
  simp [step, nextMove, hrun, hag]

theorem step_of_agenda_keyWrite {k : Fin 16} {b : Bool} (hrun : s.status = .running)
    (hag : s.agenda = .keyWrite k b :: rest) : step s = .next (keyWrite k b (s.setAgenda rest)) := by
  simp [step, nextMove, hrun, hag]

theorem tick_of_decode {w : Word} {i : Instr} (hw : fetchWord s = .ok w) (hi : decode w = .instr i) :
    tick s = exec i s := by
  rw [tick, hw, orFault_ok, hi]

theorem tick_of_unsupported {w w' : Word} (hw : fetchWord s = .ok w) (hw' : decode w = .unsupported w') :
    tick s = .next (s.setReport (some (.unsupportedInstruction w'))) := by
  rw [tick, hw, orFault_ok, hw']
  rfl

end Sys2Proof.Safety
end

section
/-! What an instruction and a move do not depend on: what the host was told before, the configuration flags, the sound
timer and the framebuffer (00_scope.md section 3; 10_state.md sections 4 and 6). -/

namespace Sys2Proof.Safety

open Sys2Proof.Machine

/-! ### What the host was told -/

/-- Every end of an instruction writes `report`, and none reads it (R100, R229). -/
theorem exec_setReport (i : Instr) (s : State) (r : Option StepError) : exec i (s.setReport r) = exec i s := by
  cases i <;> rfl

theorem tick_setReport (s : State) (r : Option StepError) : tick (s.setReport r) = tick s := by
  refine congrArg (orFault (fetchWord s)) (funext fun w => ?_)
  cases decode w with
  | instr i => exact exec_setReport i s r
  | unsupported w' => rfl

/-- Settles O51: a requested step answers the very same result, and a timer event or a key write passes `report` on. -/
theorem stepIgnoresReport : Obligations.StepIgnoresReport := by
  intro s r
  have htick : ∀ u : State, mapNext (·.setReport none) (tick (u.setReport r)) = mapNext (·.setReport none) (tick u) :=
    fun u => congrArg _ (tick_setReport u r)
  unfold step nextMove
  rw [State.setReport_status, State.setReport_agenda]
  cases s.status with
  | faulted => rfl
  | running =>
    rcases s.agenda with _ | ⟨_ | _ | _, rest⟩
    · exact htick s
    · exact htick (s.setAgenda rest)
    · rfl
    · rfl

/-- A step that tells an error answers the state before it with that report (R100, R229). -/
theorem tick_error {s t : State} {e : StepError} (h : tick s = .next t) (he : t.report = some e) :
    t = s.setReport (some e) := by
  obtain ⟨w, -, ⟨i, -, hexec⟩ | ⟨w', -, rfl⟩⟩ := tick_eq_next h
  · exact (errorsOnlyFromCallAndRet i s t e hexec he).1
  · rw [State.setReport_report] at he
    rw [he]

/-- Settles O50: the state after the error differs from the one before in `report` only, which no step reads. -/
theorem failingStepChangesNothingAndRepeats : Obligations.FailingStepChangesNothingAndRepeats := by
  intro s t e hag h he
  have hrun : s.status = .running := (step_eq_next h).1
  have htick : tick s = .next t := (step_of_agenda_nil hrun hag).symm.trans h
  obtain rfl : t = s.setReport (some e) := tick_error htick he
  refine ⟨rfl, ?_⟩
  rw [step_of_agenda_nil (s := s.setReport (some e)) hrun hag, tick_setReport, htick]

/-! ### Updates that pass through an instruction -/

section
variable {α : Type} {f : State → State}

/-- An update passes through an access when it passes through what follows. -/
theorem orFault_eq_mapNext {r : Except Fault α} {k k' : α → Result} (h : ∀ a, k' a = mapNext f (k a)) :
    orFault r k' = mapNext f (orFault r k) := by
  cases r with
  | ok a => exact h a
  | error => rfl

/-- An update passes through a stack operation when it passes through the error and through what follows. -/
theorem orError_eq_mapNext {s s' : State} {r : Except StepError α} {k k' : α → Result}
    (herr : ∀ e, s'.setReport (some e) = f (s.setReport (some e))) (h : ∀ a, k' a = mapNext f (k a)) :
    orError s' r k' = mapNext f (orError s r k) := by
  cases r with
  | ok a => exact h a
  | error e => exact congrArg Host.Outcome.next (herr e)

theorem mapNext_orFault_congr {r : Except Fault α} {k k' : α → Result} (h : ∀ a, mapNext f (k' a) = mapNext f (k a)) :
    mapNext f (orFault r k') = mapNext f (orFault r k) := by
  cases r with
  | ok a => exact h a
  | error => rfl

theorem mapNext_orError_congr {s s' : State} {r : Except StepError α} {k k' : α → Result}
    (herr : ∀ e, f (s'.setReport (some e)) = f (s.setReport (some e)))
    (h : ∀ a, mapNext f (k' a) = mapNext f (k a)) : mapNext f (orError s' r k') = mapNext f (orError s r k) := by
  cases r with
  | ok a => exact h a
  | error e => exact congrArg Host.Outcome.next (herr e)

end

/-- Settles O52: the other instructions neither read a flag nor write one. -/
theorem flagsMatterToThreeInstructions : Obligations.FlagsMatterToThreeInstructions := by
  intro i s b c hjp hsh
  cases i with
  | jpOff x nnn => exact absurd rfl (hjp x nnn)
  | shr x y => exact absurd rfl (hsh x y).1
  | shl x y => exact absurd rfl (hsh x y).2
  | bcd | store | load | drw | skp | sknp | waitkey => exact orFault_eq_mapNext fun _ => rfl
  | ret | call => exact orError_eq_mapNext (fun _ => rfl) fun _ => rfl
  | _ => rfl

/-- Settles O53: the other instructions neither read nor write `ST`. -/
theorem noInstructionReadsSoundTimer : Obligations.NoInstructionReadsSoundTimer := by
  intro i s b hst
  cases i with
  | ldStVx x => exact absurd rfl (hst x)
  | bcd | store | load | drw | skp | sknp | waitkey => exact orFault_eq_mapNext fun _ => rfl
  | ret | call => exact orError_eq_mapNext (fun _ => rfl) fun _ => rfl
  | _ => rfl

/-- Settles O54: no other instruction reads a pixel; CLS writes them all, whatever they were. -/
theorem onlyDrwObservesDisplay : Obligations.OnlyDrwObservesDisplay := by
  intro i s d hdrw
  cases i with
  | drw x y n => exact absurd rfl (hdrw x y n)
  | bcd | store | load | skp | sknp | waitkey => exact mapNext_orFault_congr fun _ => rfl
  | ret | call => exact mapNext_orError_congr (fun _ => rfl) fun _ => rfl
  | _ => rfl

end Sys2Proof.Safety
end

section
/-! BCD, STORE and LOAD (43_index_memory.md sections 1 and 3): a block of bytes written or read from `I` on. -/

namespace Sys2Proof.Safety

open Sys2Proof.Machine

/-- The frame of a memory that agrees with the old one outside some addresses (R54). -/
theorem keeps_setMem {s : State} {m : Memory} {bytes : Nat → Prop}
    (h : ∀ a, ¬bytes a → Memory.read m a = s.byte a) : Keeps s (s.setMem m) noReg bytes [] := by
  constructor <;> intros
  case byte a ha => exact h a ha
  all_goals rfl

/-- The frame of a register file that agrees with the old one outside some registers (R175). -/
theorem keeps_setRegs {s : State} {v : Vector Byte 16} {regs : RegIdx → Prop}
    (h : ∀ r : RegIdx, ¬regs r → v[r.val] = s.reg r) : Keeps s (s.setRegs v) regs nowhere [] := by
  constructor <;> intros
  case reg r hr => exact h r hr
  all_goals rfl

/-! ### Writing a block -/

/-- What BCD and STORE share: the bytes of a list written from `I` on, and the end of the step. -/
def writeAtIndex (bs : List Byte) (s : State) : Result :=
  orFault (writeBlock s.mem (effAddr s 0) bs) fun m => finish 2 (s.setMem m)

theorem exec_bcd (x : RegIdx) (s : State) : exec (.bcd x) s = writeAtIndex (bcdDigits (s.reg x)) s := rfl

theorem exec_store (x : RegIdx) (s : State) : exec (.store x) s = writeAtIndex (regsThrough s x) s := rfl

theorem writeAtIndex_fits {bs : List Byte} {n : Nat} {s : State} (hn : bs.length = n + 1)
    (hfit : s.i.toNat + n ≤ 4095) :
    ∃ t, writeAtIndex bs s = .next t ∧ (∀ k (hk : k < bs.length), t.byte (s.i.toNat + k) = bs[k]) ∧
      t.pc = s.pc + 2 ∧ t.report = none ∧ Keeps s t noReg (fun a => effAddr s 0 ≤ a ∧ a ≤ effAddr s n) [] := by
  obtain ⟨m, hm, hread, -⟩ := writeBlock_fits bs s.mem (effAddr s 0) (by rw [effAddr_zero]; omega)
  refine ⟨(s.setMem m).commit 2, by rw [writeAtIndex, hm]; rfl, fun k hk => ?_, rfl, rfl, (keeps_setMem ?_).commit 2⟩
  · rw [State.commit_byte, State.setMem_byte, hread, effAddr_zero]
    simp [hk]
  · intro a ha
    rw [hread, dif_neg, State.byte]
    unfold effAddr at *
    omega

theorem writeAtIndex_beyond {bs : List Byte} {n : Nat} {s : State} (hn : bs.length = n + 1)
    (hbeyond : 4095 < s.i.toNat + n) : writeAtIndex bs s = .fault (.memoryBounds (max s.i.toNat 4096)) := by
  rw [writeAtIndex, writeBlock_beyond bs s.mem (effAddr s 0) (by omega) (by rw [effAddr_zero]; omega), effAddr_zero,
    orFault_error]

/-- Settles O25: a block of three bytes, whose values are the digits. -/
theorem bcdStoresDigits : Obligations.BcdStoresDigits := by
  intro x s hfit
  obtain ⟨t, ht, hbyte, hpc, hreport, hkeeps⟩ := writeAtIndex_fits (bs := bcdDigits (s.reg x)) rfl hfit
  have hlen : (bcdDigits (s.reg x)).length = 3 := rfl
  have hlt : (s.reg x).toNat < 256 := (s.reg x).isLt
  refine ⟨t, ht, ?_, ?_, ?_, hpc, hreport, hkeeps⟩
  · rw [← Nat.add_zero s.i.toNat, hbyte 0 (by omega)]
    exact Nat.mod_eq_of_lt (by omega)
  · rw [hbyte 1 (by omega)]
    exact Nat.mod_eq_of_lt (by omega)
  · rw [hbyte 2 (by omega)]
    exact Nat.mod_eq_of_lt (by omega)

/-- Settles O26: a block of the registers up to `x`. -/
theorem storeWritesRegisterBlock : Obligations.StoreWritesRegisterBlock := by
  intro x s hfit
  obtain ⟨t, ht, hbyte, hend⟩ := writeAtIndex_fits (regsThrough_length s x) hfit
  refine ⟨t, ht, fun r hr => ?_, hend⟩
  have hlt : r.val < (regsThrough s x).length := by
    rw [regsThrough_length]
    exact Nat.lt_succ_of_le hr
  rw [hbyte r.val hlt, regsThrough_get]

/-! ### Reading a block -/

theorem load_fits {x : RegIdx} {s : State} (hfit : s.i.toNat + x.val ≤ 4095) :
    exec (.load x) s = .next ((s.setRegs (fillRegs s.v 0
      ((List.range (x.val + 1)).map fun k => s.byte (s.i.toNat + k)))).commit 2) := by
  show orFault (readBlock s.mem (effAddr s 0) (x.val + 1)) _ = _
  rw [effAddr_zero, readBlock_fits s.mem (x.val + 1) s.i.toNat (by omega)]
  rfl

theorem load_beyond {x : RegIdx} {s : State} (hbeyond : 4095 < s.i.toNat + x.val) :
    exec (.load x) s = .fault (.memoryBounds (max s.i.toNat 4096)) := by
  show orFault (readBlock s.mem (effAddr s 0) (x.val + 1)) _ = _
  rw [effAddr_zero, readBlock_beyond s.mem (x.val + 1) s.i.toNat x.val.succ_pos (by omega), orFault_error]

/-- Settles O27: the registers up to `x` are filled from the block that was read. -/
theorem loadReadsRegisterBlock : Obligations.LoadReadsRegisterBlock := by
  intro x s hfit
  refine ⟨_, load_fits hfit, fun r hr => ?_, rfl, rfl, (keeps_setRegs fun r hr => ?_).commit 2⟩
  · have hlt : r.val < x.val + 1 := Nat.lt_succ_of_le hr
    rw [State.commit_reg, State.setRegs_reg, fillRegs_get]
    simp [hlt]
  · have hge : ¬r.val < x.val + 1 := fun h => hr (Nat.le_of_lt_succ h)
    rw [fillRegs_get, dif_neg (by simp [hge]), State.reg]

theorem drw_beyond {x y : RegIdx} {n : Nibble} {s : State} (hn : 0 < n.toNat)
    (hbeyond : 4095 < s.i.toNat + n.toNat - 1) :
    exec (.drw x y n) s = .fault (.memoryBounds (max s.i.toNat 4096)) := by
  show orFault (readBlock s.mem (effAddr s 0) n.toNat) _ = _
  rw [effAddr_zero, readBlock_beyond s.mem n.toNat s.i.toNat hn (by omega), orFault_error]

/-- Settles O28: the block's first address above 4095 is the fault's. -/
theorem dataAccessBeyondMemoryFaults : Obligations.DataAccessBeyondMemoryFaults := fun x _ _ s =>
  ⟨writeAtIndex_beyond (bs := bcdDigits (s.reg x)) rfl,
    fun h => ⟨writeAtIndex_beyond (regsThrough_length s x) h, load_beyond h⟩, drw_beyond⟩

/-! ### Stored bytes as code -/

/-- Settles O55: STORE answered, so its block fits and holds the registers; both bytes of the word are in it. -/
theorem storedBytesAreFetchedNext : Obligations.StoredBytesAreFetchedNext := by
  intro x r r' s t h hle hsucc hpc
  have hr'x : r'.val ≤ x.val := hle
  have hfit : s.i.toNat + x.val ≤ 4095 := by
    by_contra hbeyond
    rw [exec_store, writeAtIndex_beyond (regsThrough_length s x) (by omega)] at h
    cases h
  obtain ⟨u, hu, hbyte, -⟩ := storeWritesRegisterBlock x s hfit
  obtain rfl : u = t := Host.Outcome.next.inj (hu.symm.trans h)
  have hhi : Memory.read u.mem u.pc.toNat = s.reg r := by
    rw [hpc]
    exact hbyte r (Fin.le_def.2 (by omega))
  have hlo : Memory.read u.mem (u.pc.toNat + 1) = s.reg r' := by
    rw [hpc, Nat.add_assoc, ← hsucc]
    exact hbyte r' hle
  exact memRead2_eq_ok.2 ⟨by omega, by rw [hhi, hlo]⟩

end Sys2Proof.Safety
end

section
/-! DRW (44_display.md section 3). A sprite is the list of the pixels under its 1 bits; the pixels are distinct, since a
sprite is at most 8 columns and 15 rows, so each is toggled once. -/

namespace Sys2Proof.Safety

open Sys2Proof.Machine

/-! ### Toggling a list of distinct pixels -/

/-- One pixel toggled, with the collision remembered (R194). -/
def togglePixel (d : Display × Bool) (p : Fin 64 × Fin 32) : Display × Bool :=
  (Display.flip d.1 p.1 p.2, d.2 || Display.get d.1 p.1 p.2)

theorem foldl_togglePixel_get {ps : List (Fin 64 × Fin 32)} (hps : ps.Nodup) (d : Display × Bool) (cx : Fin 64)
    (cy : Fin 32) :
    Display.get (ps.foldl togglePixel d).1 cx cy =
      if (cx, cy) ∈ ps then !Display.get d.1 cx cy else Display.get d.1 cx cy := by
  induction ps generalizing d with
  | nil => simp
  | cons p ps ih =>
    obtain ⟨hp, hps⟩ := List.nodup_cons.1 hps
    rw [List.foldl_cons, ih hps, togglePixel, Display.get_flip]
    by_cases heq : (cx, cy) = p
    · subst heq
      simp [hp]
    · have hne : ¬(cx = p.1 ∧ cy = p.2) := fun h => heq (Prod.ext h.1 h.2)
      simp [heq, hne]

theorem foldl_togglePixel_collision {ps : List (Fin 64 × Fin 32)} (hps : ps.Nodup) (d : Display × Bool) :
    (ps.foldl togglePixel d).2 = true ↔ d.2 = true ∨ ∃ p ∈ ps, Display.get d.1 p.1 p.2 = true := by
  induction ps generalizing d with
  | nil => simp
  | cons p ps ih =>
    obtain ⟨hp, hps⟩ := List.nodup_cons.1 hps
    have hkeep : ∀ q ∈ ps, Display.get (togglePixel d p).1 q.1 q.2 = Display.get d.1 q.1 q.2 := fun q hq => by
      rw [togglePixel, Display.get_flip, if_neg]
      exact fun h => hp (Prod.ext h.1 h.2 ▸ hq)
    have hrest : (∃ q ∈ ps, Display.get (togglePixel d p).1 q.1 q.2 = true) ↔
        ∃ q ∈ ps, Display.get d.1 q.1 q.2 = true := exists_congr fun q => and_congr_right fun hq => by rw [hkeep q hq]
    rw [List.foldl_cons, ih hps, hrest, List.exists_mem_cons_iff, togglePixel, Bool.or_eq_true, or_assoc]

/-! ### The pixels of a sprite -/

/-- The pixel of column `c` and row `r` of a sprite at `(ox, oy)`, each axis modulo its size (R194). -/
def spritePixel (ox oy r c : Nat) : Fin 64 × Fin 32 := (Fin.ofNat 64 (ox + c), Fin.ofNat 32 (oy + r))

/-- The pixels under the 1 bits of a row (R193). -/
def rowPixels (ox oy r : Nat) (b : Byte) : List (Fin 64 × Fin 32) :=
  ((List.range 8).filter fun c => b.getLsbD (7 - c)).map (spritePixel ox oy r)

/-- The pixels of the rows from row `r` on. -/
def spritePixels (ox oy : Nat) : Nat → List Byte → List (Fin 64 × Fin 32)
  | _, [] => []
  | r, b :: bs => rowPixels ox oy r b ++ spritePixels ox oy (r + 1) bs

theorem drawBit_eq (ox oy r : Nat) (b : Byte) (d : Display × Bool) (c : Nat) :
    drawBit ox oy r b d c = if b.getLsbD (7 - c) then togglePixel d (spritePixel ox oy r c) else d := rfl

theorem drawRow_eq_foldl (ox oy r : Nat) (b : Byte) (d : Display × Bool) :
    drawRow ox oy r b d = (rowPixels ox oy r b).foldl togglePixel d := by
  rw [rowPixels, List.foldl_map, List.foldl_filter]
  rfl

theorem drawRows_eq_foldl (ox oy : Nat) (bs : List Byte) (r : Nat) (d : Display × Bool) :
    drawRows ox oy r bs d = (spritePixels ox oy r bs).foldl togglePixel d := by
  induction bs generalizing r d with
  | nil => rfl
  | cons b bs ih => rw [drawRows, ih, drawRow_eq_foldl, spritePixels, List.foldl_append]

theorem mem_rowPixels {ox oy r : Nat} {b : Byte} {p : Fin 64 × Fin 32} :
    p ∈ rowPixels ox oy r b ↔ ∃ c < 8, b.getLsbD (7 - c) = true ∧ spritePixel ox oy r c = p := by
  simp [rowPixels, and_assoc]

theorem mem_spritePixels {ox oy : Nat} {bs : List Byte} {r : Nat} {p : Fin 64 × Fin 32} :
    p ∈ spritePixels ox oy r bs ↔ ∃ k, ∃ h : k < bs.length, p ∈ rowPixels ox oy (r + k) bs[k] := by
  induction bs generalizing r with
  | nil => simp [spritePixels]
  | cons b bs ih =>
    rw [spritePixels, List.mem_append, ih]
    constructor
    · rintro (h | ⟨k, hk, h⟩)
      · exact ⟨0, Nat.succ_pos _, h⟩
      · exact ⟨k + 1, Nat.succ_lt_succ hk, by rwa [← Nat.add_assoc, Nat.add_right_comm]⟩
    · rintro ⟨_ | k, hk, h⟩
      · exact .inl h
      · exact .inr ⟨k, Nat.lt_of_succ_lt_succ hk, by rwa [Nat.add_right_comm, Nat.add_assoc]⟩

theorem rowPixels_nodup (ox oy r : Nat) (b : Byte) : (rowPixels ox oy r b).Nodup := by
  refine List.Nodup.map_on ?_ (List.nodup_range.filter _)
  intro c hc c' hc' heq
  simp only [List.mem_filter, List.mem_range] at hc hc'
  have hx : (ox + c) % 64 = (ox + c') % 64 := congrArg (·.1.val) heq
  omega

theorem spritePixels_nodup (ox oy : Nat) (bs : List Byte) (r : Nat) (hlen : bs.length ≤ 32) :
    (spritePixels ox oy r bs).Nodup := by
  induction bs generalizing r with
  | nil => exact List.nodup_nil
  | cons b bs ih =>
    rw [List.length_cons] at hlen
    refine List.Nodup.append (rowPixels_nodup ox oy r b) (ih (r + 1) (by omega)) fun p hp hp' => ?_
    obtain ⟨c, -, -, rfl⟩ := mem_rowPixels.1 hp
    obtain ⟨k, hk, hp'⟩ := mem_spritePixels.1 hp'
    obtain ⟨c', -, -, heq⟩ := mem_rowPixels.1 hp'
    have hy : (oy + (r + 1 + k)) % 32 = (oy + r) % 32 := congrArg (·.2.val) heq
    omega

/-! ### DRW on the framebuffer -/

/-- The sprite of a DRW: the pixels of the `n` bytes from `I` on, placed at the origin (R194). -/
def sprite (s : State) (x y : RegIdx) (n : Nibble) : List (Fin 64 × Fin 32) :=
  spritePixels ((s.reg x).toNat % 64) ((s.reg y).toNat % 32) 0
    ((List.range n.toNat).map fun k => s.byte (s.i.toNat + k))

theorem sprite_nodup (s : State) (x y : RegIdx) (n : Nibble) : (sprite s x y n).Nodup :=
  spritePixels_nodup _ _ _ _ (by simp; omega)

theorem mem_sprite {s : State} {x y : RegIdx} {n : Nibble} {cx : Fin 64} {cy : Fin 32} :
    (cx, cy) ∈ sprite s x y n ↔ SpriteCovers s x y n cx cy := by
  unfold sprite SpriteCovers
  rw [mem_spritePixels]
  simp only [List.length_map, List.length_range, List.getElem_map, List.getElem_range, Nat.zero_add, mem_rowPixels,
    spritePixel, Prod.mk.injEq, Fin.ext_iff, Fin.val_ofNat]
  constructor
  · rintro ⟨r, hr, c, hc, hbit, hx, hy⟩
    exact ⟨r, hr, c, hc, hx, hy, hbit⟩
  · rintro ⟨r, hr, c, hc, hx, hy, hbit⟩
    exact ⟨r, hr, c, hc, hbit, hx, hy⟩

/-- The framebuffer after a DRW, and whether a pixel went from on to off. -/
def drawSprite (s : State) (x y : RegIdx) (n : Nibble) : Display × Bool :=
  (sprite s x y n).foldl togglePixel (s.fb, false)

theorem drawSprite_get (s : State) (x y : RegIdx) (n : Nibble) (cx : Fin 64) (cy : Fin 32) :
    Display.get (drawSprite s x y n).1 cx cy =
      if (cx, cy) ∈ sprite s x y n then !s.pixel cx cy else s.pixel cx cy :=
  foldl_togglePixel_get (sprite_nodup s x y n) _ cx cy

theorem drawSprite_collision (s : State) (x y : RegIdx) (n : Nibble) :
    (drawSprite s x y n).2 = true ↔ ∃ cx cy, (cx, cy) ∈ sprite s x y n ∧ s.pixel cx cy = true := by
  rw [drawSprite, foldl_togglePixel_collision (sprite_nodup s x y n)]
  simp [State.pixel]

/-- The state after a DRW, before the commit. -/
def drawn (s : State) (x y : RegIdx) (n : Nibble) : State :=
  (s.setFb (drawSprite s x y n).1).setV Config.flagReg (flagByte (drawSprite s x y n).2)

theorem exec_drw {x y : RegIdx} {n : Nibble} {s : State} (hfit : n.toNat = 0 ∨ s.i.toNat + n.toNat - 1 ≤ 4095) :
    exec (.drw x y n) s = .next ((drawn s x y n).commit 2) := by
  have hread : readBlock s.mem s.i.toNat n.toNat = .ok ((List.range n.toNat).map fun k => s.byte (s.i.toNat + k)) := by
    obtain hzero | hpos := Nat.eq_zero_or_pos n.toNat
    · rw [hzero]
      rfl
    · exact readBlock_fits s.mem n.toNat s.i.toNat (by omega)
  show orFault (readBlock s.mem s.i.toNat n.toNat) _ = _
  rw [hread, orFault_ok, drawRows_eq_foldl]
  rfl

/-- DRW answers a next state only where its rows fit below 4096. -/
theorem drw_fits {x y : RegIdx} {n : Nibble} {s t : State} (h : exec (.drw x y n) s = .next t) :
    n.toNat = 0 ∨ s.i.toNat + n.toNat - 1 ≤ 4095 := by
  by_contra hnot
  rw [drw_beyond (by omega) (by omega)] at h
  cases h

theorem keeps_drawn (s : State) (x y : RegIdx) (n : Nibble) : Keeps s (drawn s x y n) (· = 15) nowhere [.display] :=
  { keeps_setFb s (drawSprite s x y n).1 with
    reg := fun _ hr => State.setV_reg_other _ hr _ }

theorem drawn_flag (s : State) (x y : RegIdx) (n : Nibble) :
    (drawn s x y n).reg 15 = flagByte (drawSprite s x y n).2 := State.setV_reg_same _ _ _

theorem drawn_pixel (s : State) (x y : RegIdx) (n : Nibble) (cx : Fin 64) (cy : Fin 32) :
    (drawn s x y n).pixel cx cy = if (cx, cy) ∈ sprite s x y n then !s.pixel cx cy else s.pixel cx cy :=
  drawSprite_get s x y n cx cy

/-- Settles O30: the covered pixels are the sprite's, each toggled once, and the flag is whether one of them was on. -/
theorem drwTogglesCoveredPixels : Obligations.DrwTogglesCoveredPixels := by
  intro x y n s hfit
  refine ⟨_, exec_drw hfit, fun cx cy hcov => ?_, fun cx cy hcov => ?_, ?_, fun hon => ?_, rfl, rfl,
    (keeps_drawn s x y n).commit 2⟩
  · rw [State.commit_pixel, drawn_pixel, if_pos (mem_sprite.2 hcov)]
  · rw [State.commit_pixel, drawn_pixel, if_neg (mt mem_sprite.1 hcov)]
  · rintro ⟨cx, cy, hs, ht⟩
    rw [State.commit_pixel, drawn_pixel] at ht
    have hmem : (cx, cy) ∈ sprite s x y n := by
      by_contra hnot
      rw [if_neg hnot, hs] at ht
      cases ht
    rw [State.commit_reg, drawn_flag, (drawSprite_collision s x y n).2 ⟨cx, cy, hmem, hs⟩]
    rfl
  · have hnone : (drawSprite s x y n).2 = false := by
      refine Bool.eq_false_iff.2 fun hcol => ?_
      obtain ⟨cx, cy, hmem, hs⟩ := (drawSprite_collision s x y n).1 hcol
      have ht := hon cx cy hs
      rw [State.commit_pixel, drawn_pixel, if_pos hmem, hs] at ht
      cases ht
    rw [State.commit_reg, drawn_flag, hnone]
    rfl

/-! ### Two draws -/

/-- Which pixels a sprite covers depends on the origin modulo the display's size, on `I` and on memory (R194). -/
theorem spriteCovers_congr {s t : State} {x y x' y' : RegIdx} {n : Nibble} {cx : Fin 64} {cy : Fin 32}
    (hx : (t.reg x').toNat % 64 = (s.reg x).toNat % 64) (hy : (t.reg y').toNat % 32 = (s.reg y).toNat % 32)
    (hi : t.i = s.i) (hbyte : ∀ a, t.byte a = s.byte a) :
    SpriteCovers t x' y' n cx cy ↔ SpriteCovers s x y n cx cy := by
  simp only [SpriteCovers, hx, hy, hi, hbyte]

/-- Settles O31: the second draw covers the same pixels, so each is toggled back, and it collides where the first turned
a pixel on. -/
theorem drawingTwiceRestoresDisplay : Obligations.DrawingTwiceRestoresDisplay := by
  intro x y n s t h hx hy
  have hfit := drw_fits h
  obtain ⟨t', ht', hcov, hnot, -, -, -, -, hkeeps⟩ := drwTogglesCoveredPixels x y n s hfit
  obtain rfl : t' = t := Host.Outcome.next.inj (ht'.symm.trans h)
  have hi : t'.i = s.i := hkeeps.index (by decide)
  obtain ⟨u, hu, hcov', hnot', hone, hzero, -, -, -⟩ := drwTogglesCoveredPixels x y n t' (hi ▸ hfit)
  have hback : ∀ cx cy, u.pixel cx cy = s.pixel cx cy := fun cx cy => by
    have hsame : SpriteCovers t' x y n cx cy ↔ SpriteCovers s x y n cx cy :=
      spriteCovers_congr hx hy hi fun a => hkeeps.byte a id
    by_cases hc : SpriteCovers s x y n cx cy
    · rw [hcov' cx cy (hsame.2 hc), hcov cx cy hc, Bool.not_not]
    · rw [hnot' cx cy (mt hsame.1 hc), hnot cx cy hc]
  refine ⟨u, hu, hback, fun ⟨cx, cy, hoff, hon⟩ => hone ⟨cx, cy, hon, (hback cx cy).trans hoff⟩, fun hsub => ?_⟩
  exact hzero fun cx cy hon => (hback cx cy).trans (hsub cx cy hon)

/-- Settles O32: congruent origins cover the same pixels, and the flag is determined by the two framebuffers. -/
theorem congruentOriginsDrawAlike : Obligations.CongruentOriginsDrawAlike := by
  intro x y x' y' n s t h hx hy
  have hfit := drw_fits h
  obtain ⟨t', ht', hcov, hnot, hone, hzero, -⟩ := drwTogglesCoveredPixels x y n s hfit
  obtain rfl : t' = t := Host.Outcome.next.inj (ht'.symm.trans h)
  obtain ⟨u, hu, hcov', hnot', hone', hzero', -⟩ := drwTogglesCoveredPixels x' y' n s hfit
  have hpixel : ∀ cx cy, u.pixel cx cy = t'.pixel cx cy := fun cx cy => by
    have hsame : SpriteCovers s x' y' n cx cy ↔ SpriteCovers s x y n cx cy :=
      spriteCovers_congr hx hy rfl fun _ => rfl
    by_cases hc : SpriteCovers s x y n cx cy
    · rw [hcov' cx cy (hsame.2 hc), hcov cx cy hc]
    · rw [hnot' cx cy (mt hsame.1 hc), hnot cx cy hc]
  refine ⟨u, hu, hpixel, ?_⟩
  by_cases hcol : ∃ cx cy, s.pixel cx cy = true ∧ t'.pixel cx cy = false
  · obtain ⟨cx, cy, hon, hoff⟩ := hcol
    rw [hone ⟨cx, cy, hon, hoff⟩, hone' ⟨cx, cy, hon, (hpixel cx cy).trans hoff⟩]
  · have hstay : ∀ cx cy, s.pixel cx cy = true → t'.pixel cx cy = true := fun cx cy hon =>
      Bool.eq_true_of_not_eq_false fun hoff => hcol ⟨cx, cy, hon, hoff⟩
    rw [hzero hstay, hzero' fun cx cy hon => (hpixel cx cy).trans (hstay cx cy hon)]

end Sys2Proof.Safety
end

section
/-! The instructions that set `pc` (41_flow.md sections 2 and 3), the fetch they lead to (40_cycle.md section 2), and
the register skips (41_flow.md section 4). -/

namespace Sys2Proof.Safety

open Sys2Proof.Machine

/-! ### The fetch -/

theorem fetchWord_fits {s : State} (h : s.pc.toNat + 1 ≤ 4095) :
    fetchWord s = .ok (assemble (s.byte s.pc.toNat) (s.byte (s.pc.toNat + 1))) :=
  memRead2_eq_ok.2 ⟨h, rfl⟩

/-- The fault of a fetch carries the address of the second byte (R53, C11). -/
theorem fetchWord_beyond {s : State} (h : 4095 < s.pc.toNat + 1) :
    fetchWord s = .error (.memoryBounds (s.pc.toNat + 1)) := by
  rw [fetchWord, memRead2, if_neg (Nat.not_le.2 h)]

theorem tick_beyond {s : State} (h : 4095 < s.pc.toNat + 1) : tick s = .fault (.memoryBounds (s.pc.toNat + 1)) := by
  rw [tick, fetchWord_beyond h, orFault_error]

/-- The first byte is the high one (R50). -/
theorem assemble_toNat (hi lo : Byte) : (assemble hi lo).toNat = hi.toNat * 256 + lo.toNat := by
  rw [assemble, BitVec.toNat_append, ← Nat.shiftLeft_add_eq_or_of_lt lo.isLt, Nat.shiftLeft_eq]

/-- Settles O6: both sides of the bound on the fetch. -/
theorem fetchReadsBigEndianOrFaults : Obligations.FetchReadsBigEndianOrFaults := by
  intro s
  refine ⟨fun h => ⟨_, fetchWord_fits h, assemble_toNat _ _, ?_⟩, fun h => ⟨fetchWord_beyond h, tick_beyond h⟩⟩
  rw [tick, fetchWord_fits h, orFault_ok]
  rfl

/-! ### Jumps -/

theorem Keeps.refl (s : State) : Keeps s s noReg nowhere [] := by
  constructor <;> intros <;> rfl

/-- The frame of an assignment to the call stack (R35). -/
theorem keeps_setStk (s : State) (l : List Word) : Keeps s (s.setStk l) noReg nowhere [.stack] := by
  constructor <;> intros
  case stack h => exact absurd (List.mem_singleton_self _) h
  all_goals rfl

/-- A state that differs in the call stack only differs in nothing once the stack is put back. -/
theorem Keeps.setStk_back {s t : State} (h : Keeps s t noReg nowhere [.stack]) :
    Keeps s (t.setStk s.stk) noReg nowhere [] :=
  { h with
    index := fun _ => h.index (by decide)
    delay := fun _ => h.delay (by decide)
    sound := fun _ => h.sound (by decide)
    stack := fun _ => rfl
    display := fun _ => h.display (by decide)
    draws := fun _ => h.draws (by decide) }

/-- The end of a jump (R103, R120) widens no frame. -/
theorem Keeps.jump {s t : State} {regs : RegIdx → Prop} {bytes : Nat → Prop} {parts : List Part}
    (h : Keeps s t regs bytes parts) (target : Word) : Keeps s ((t.setPc target).setReport none) regs bytes parts :=
  { h with }

section
variable (x : RegIdx) (nnn : Addr12) {s : State}

theorem exec_jp (s : State) : exec (.jp nnn) s = .next ((s.setPc (zext16 nnn)).setReport none) := jumpTo_eq _ _

theorem exec_jpOff (s : State) : exec (.jpOff x nnn) s =
    .next ((s.setPc ((s.reg (offsetReg s x)).setWidth 16 + zext16 nnn)).setReport none) := jumpTo_eq _ _

theorem exec_call_room (h : s.stk.length < 16) : exec (.call nnn) s =
    .next (((s.setStk (s.stk ++ [s.pc + 2])).setPc (zext16 nnn)).setReport none) := by
  show orError s (push (s.pc + 2) s.stk) _ = _
  rw [push_of_length_lt _ h, orError_ok, jumpTo_eq]

theorem exec_call_full (h : 16 ≤ s.stk.length) :
    exec (.call nnn) s = .next (s.setReport (some .stackOverflow)) := by
  show orError s (push (s.pc + 2) s.stk) _ = _
  rw [push_eq_error.2 ⟨h, rfl⟩, orError_error]

theorem exec_ret_concat {l : List Word} {a : Word} (h : s.stk = l ++ [a]) :
    exec .ret s = .next (((s.setStk l).setPc a).setReport none) := by
  show orError s (pop s.stk) _ = _
  rw [h, pop_concat, orError_ok, jumpTo_eq]

theorem exec_ret_empty (h : s.stk = []) : exec .ret s = .next (s.setReport (some .stackUnderflow)) := by
  show orError s (pop s.stk) _ = _
  rw [pop_eq_error.2 ⟨h, rfl⟩, orError_error]

end

/-- Settles O11: both stacks; from a return address of 4095 or more the second byte of the fetch is beyond memory. -/
theorem retPopsIntoPc : Obligations.RetPopsIntoPc := by
  refine ⟨fun s l a h => ⟨⟨_, exec_ret_concat h, rfl, rfl, rfl, (keeps_setStk s l).jump a, fun ha => ?_⟩, ?_⟩,
    fun s h => exec_ret_empty h⟩
  · exact tick_beyond (s := ((s.setStk l).setPc a).setReport none) (Nat.lt_succ_of_le ha)
  · rintro ⟨-, -, hstk, -, -⟩
    exact hstk a (by simp [h])

/-- Settles O12: the largest target leaves no room for the second byte of a fetch. -/
theorem jpSetsPc : Obligations.JpSetsPc := by
  intro nnn s
  refine ⟨_, exec_jp nnn s, zext16_toNat nnn, rfl, (Keeps.refl s).jump _, ?_⟩
  rintro rfl
  have hlast : 4095 < (zext16 0xFFF).toNat + 1 := by decide
  exact tick_beyond (s := (s.setPc (zext16 0xFFF)).setReport none) hlast

/-- Settles O13: both sides of the bound on the stack. -/
theorem callPushesReturnAddress : Obligations.CallPushesReturnAddress := by
  refine ⟨fun nnn s h => ⟨_, exec_call_room nnn h, zext16_toNat nnn, ⟨_, rfl, ?_⟩, rfl, (keeps_setStk s _).jump _⟩,
    fun nnn s h => exec_call_full nnn h.ge⟩
  exact BitVec.toNat_add s.pc 2

/-- Settles O14: both modes of the jump; the sum of a byte and a 12-bit offset fits in 16 bits. -/
theorem jpOffAddsRegister : Obligations.JpOffAddsRegister := by
  intro x nnn s
  refine ⟨_, exec_jpOff x nnn s, ?_, rfl, (Keeps.refl s).jump _⟩
  rw [State.setReport_pc, State.setPc_pc, offsetTarget_toNat, offsetReg, apply_ite s.reg]

/-- Settles O38: RET pops what CALL has pushed. -/
theorem callThenRetReturns : Obligations.CallThenRetReturns := by
  intro nnn s h
  have hcall := (keeps_setStk s (s.stk ++ [s.pc + 2])).jump (zext16 nnn)
  exact ⟨_, _, exec_call_room nnn h, exec_ret_concat rfl, rfl, rfl, rfl, hcall.setStk_back.jump (s.pc + 2)⟩

/-! ### Skips -/

theorem exec_seReg (x y : RegIdx) (s : State) : exec (.seReg x y) s = skipIf (s.reg x == s.reg y) s := rfl

theorem exec_sneReg (x y : RegIdx) (s : State) : exec (.sneReg x y) s = skipIf (s.reg x != s.reg y) s := rfl

/-- Settles O16: the decoder's groups 5 and 9 do not look at the low nibble; SE_REG is a skip on equality, SNE_REG on
its negation. -/
theorem registerSkipsAdvance : Obligations.RegisterSkipsAdvance := by
  intro x y n s
  rw [exec_seReg, exec_sneReg]
  refine ⟨?_, ?_, ?_, ?_⟩
  · simp [decode, Fields.op_encXYN, Fields.x_encXYN, Fields.y_encXYN]
  · simp [decode, Fields.op_encXYN, Fields.x_encXYN, Fields.y_encXYN]
  · simpa only [beq_iff_eq] using skipIf_advances (s.reg x == s.reg y) s
  · simpa only [bne_iff_ne, ne_eq, ite_not] using skipIf_advances (s.reg x != s.reg y) s

end Sys2Proof.Safety
end

section
/-! The instructions that read a key (45_keypad_timers.md): SKP, SKNP and WAITKEY on a key index within and beyond the
16 keys. -/

namespace Sys2Proof.Safety

open Sys2Proof.Machine

theorem keyDown_of_eq {s : State} {v : Byte} {k : Fin 16} (h : v.toNat = k.val) : keyDown s v = .ok s.key[k.val] :=
  keyDown_eq_ok.2 ⟨h ▸ k.isLt, by simp only [h]⟩

theorem keyDown_beyond {s : State} {v : Byte} (h : 15 < v.toNat) : keyDown s v = .error (.keyIndex v) :=
  keyDown_eq_error.2 ⟨h, rfl⟩

section
variable (x : RegIdx) (s : State)

theorem exec_skp : exec (.skp x) s = orFault (keyDown s (s.reg x)) fun down => skipIf down s := rfl

theorem exec_sknp : exec (.sknp x) s = orFault (keyDown s (s.reg x)) fun down => skipIf (!down) s := rfl

theorem exec_waitkey : exec (.waitkey x) s =
    orFault (keyDown s (s.reg x)) fun down => .next (s.commit (if down then 2 else 0)) := rfl

end

/-- Settles O33: SKP is a skip on the key being down, SKNP on its being up. -/
theorem keySkipsAdvance : Obligations.KeySkipsAdvance := by
  intro x s k hk
  rw [exec_skp, exec_sknp, keyDown_of_eq hk, orFault_ok, orFault_ok]
  refine ⟨skipIf_advances _ s, ?_⟩
  obtain ⟨t, ht, hpc, hend⟩ := skipIf_advances (!s.key[k.val]) s
  refine ⟨t, ht, ?_, hend⟩
  rw [hpc]
  cases s.key[k.val] <;> rfl

/-- Settles O34: the increment is the only thing the key decides. -/
theorem waitkeyHoldsPcWhileKeyUp : Obligations.WaitkeyHoldsPcWhileKeyUp := by
  intro x s k hk
  rw [exec_waitkey, keyDown_of_eq hk, orFault_ok]
  refine ⟨_, rfl, ?_, rfl, keeps_commit s _⟩
  rw [State.commit_pc]
  cases s.key[k.val] <;> simp

/-- Settles O35: the three instructions look the key up first. -/
theorem keyIndexAbove15Faults : Obligations.KeyIndexAbove15Faults := by
  intro x s h
  rw [exec_skp, exec_sknp, exec_waitkey, keyDown_beyond h]
  exact ⟨rfl, rfl, rfl⟩

end Sys2Proof.Safety
end

section
/-! The instructions that write a flag (42_alu.md sections 1, 4 and 5; 43_index_memory.md section 2) and RND
(42_alu.md section 6). -/

namespace Sys2Proof.Safety

open Sys2Proof.Machine

/-! ### Flag and result -/

/-- The frame of flag and result (R141). -/
theorem keeps_setFlagThen (s : State) (flag : Byte) (x : RegIdx) (b : Byte) :
    Keeps s (s.setFlagThen flag x b) (fun r => r = x ∨ r = 15) nowhere [] :=
  { keeps_setV s x b with
    reg := fun r hr => by
      rw [State.setFlagThen_reg, if_neg fun h => hr (.inl h), if_neg fun h => hr (.inr h)] }

/-- What ends each of the five instructions that write a flag and a result. -/
theorem setFlagThen_commit_advances (s : State) (flag : Byte) (x : RegIdx) (b : Byte) :
    ((s.setFlagThen flag x b).commit 2).pc = s.pc + 2 ∧ ((s.setFlagThen flag x b).commit 2).report = none ∧
      Keeps s ((s.setFlagThen flag x b).commit 2) (fun r => r = x ∨ r = 15) nowhere [] :=
  ⟨rfl, rfl, (keeps_setFlagThen s flag x b).commit 2⟩

theorem setFlagThen_commit_result (s : State) (flag : Byte) (x : RegIdx) (b : Byte) :
    ((s.setFlagThen flag x b).commit 2).reg x = b := by
  rw [State.commit_reg, State.setFlagThen_reg, if_pos rfl]

theorem setFlagThen_commit_flag (s : State) (flag : Byte) {x : RegIdx} (b : Byte) (hx : x ≠ 15) :
    ((s.setFlagThen flag x b).commit 2).reg 15 = flag := by
  rw [State.commit_reg, State.setFlagThen_reg, if_neg hx.symm, if_pos rfl]

theorem flagByte_decide_toNat (p : Prop) [Decidable p] : (flagByte (decide p)).toNat = if p then 1 else 0 := by
  simp [flagByte_toNat]

section
variable (x y : RegIdx) (kk : Byte) (s : State)

theorem exec_addReg : exec (.addReg x y) s =
    .next ((s.setFlagThen (carryFlag (s.reg x) (s.reg y)) x (s.reg x + s.reg y)).commit 2) := rfl

theorem exec_sub : exec (.sub x y) s =
    .next ((s.setFlagThen (greaterFlag (s.reg x) (s.reg y)) x (s.reg x - s.reg y)).commit 2) := rfl

theorem exec_subn : exec (.subn x y) s =
    .next ((s.setFlagThen (greaterFlag (s.reg y) (s.reg x)) x (s.reg y - s.reg x)).commit 2) := rfl

theorem exec_shr : exec (.shr x y) s =
    .next ((s.setFlagThen (lowBitFlag (shiftSource s x y)) x (shiftSource s x y >>> 1)).commit 2) := rfl

theorem exec_shl : exec (.shl x y) s =
    .next ((s.setFlagThen (lowBitFlag (shiftSource s x y)) x (shiftSource s x y <<< 1)).commit 2) := rfl

theorem exec_addI : exec (.addI x) s =
    .next (((s.setI (s.i + (s.reg x).setWidth 16)).setV 15 (beyondFlag s.i (s.reg x))).commit 2) := rfl

theorem exec_rnd : exec (.rnd x kk) s =
    .next (((s.setV x (Config.randomByte s.draws &&& kk)).setDraws (s.draws + 1)).commit 2) := rfl

end

/-- Settles O19: the true sum decides the carry, its low byte is the result. -/
theorem addRegSumAndCarry : Obligations.AddRegSumAndCarry := by
  intro x y s
  refine ⟨_, exec_addReg x y s, ?_, fun hx => ?_, setFlagThen_commit_advances s _ x _⟩
  · rw [setFlagThen_commit_result]
    exact BitVec.toNat_add _ _
  · rw [setFlagThen_commit_flag s _ _ hx]
    exact flagByte_decide_toNat _

/-- The difference of bytes: the true one, or that modulo 256 (R149). -/
theorem sub_toNat (a b : Byte) :
    (a - b).toNat = if b.toNat ≤ a.toNat then a.toNat - b.toNat else 256 + a.toNat - b.toNat := by
  rw [BitVec.toNat_sub]
  split <;> omega

/-- Settles O20: SUBN is SUB with the operands exchanged. -/
theorem subtractDifferenceAndFlag : Obligations.SubtractDifferenceAndFlag := by
  intro x y s
  refine ⟨⟨_, exec_sub x y s, ?_, fun hx => ?_, setFlagThen_commit_advances s _ x _⟩,
    ⟨_, exec_subn x y s, ?_, fun hx => ?_, setFlagThen_commit_advances s _ x _⟩⟩
  · rw [setFlagThen_commit_result, sub_toNat]
  · rw [setFlagThen_commit_flag s _ _ hx]
    exact flagByte_decide_toNat _
  · rw [setFlagThen_commit_result, sub_toNat]
  · rw [setFlagThen_commit_flag s _ _ hx]
    exact flagByte_decide_toNat _

theorem lowBitFlag_toNat (b : Byte) : (lowBitFlag b).toNat = b.toNat % 2 := by
  rw [lowBitFlag, BitVec.toNat_and]
  exact Nat.and_one_is_mod _

/-- Settles O21: both shifts have one source and one flag. -/
theorem shiftsByOne : Obligations.ShiftsByOne := by
  rintro x y s _ rfl
  refine ⟨⟨_, exec_shr x y s, ?_, fun hx => ?_, setFlagThen_commit_advances s _ x _⟩,
    ⟨_, exec_shl x y s, ?_, fun hx => ?_, setFlagThen_commit_advances s _ x _⟩⟩
  · rw [setFlagThen_commit_result, BitVec.toNat_ushiftRight, Nat.shiftRight_one, shiftSource]
  · rw [setFlagThen_commit_flag s _ _ hx, lowBitFlag_toNat, shiftSource]
  · rw [setFlagThen_commit_result, BitVec.toNat_shiftLeft, Nat.shiftLeft_eq, shiftSource, Nat.pow_one]
  · rw [setFlagThen_commit_flag s _ _ hx, lowBitFlag_toNat, shiftSource]

/-- Settles O24: the sum of a word and a byte is not cut before the flag is taken from it. -/
theorem addIndexAndFlag : Obligations.AddIndexAndFlag := by
  intro x s
  refine ⟨_, exec_addI x s, ?_, ?_, rfl, rfl, Keeps.commit ?_ 2⟩
  · rw [State.commit_i, State.setV_i, State.setI_i, BitVec.toNat_add, BitVec.toNat_setWidth]
    omega
  · rw [setV_commit_reg_same]
    exact flagByte_decide_toNat _
  · exact { keeps_setI s (s.i + (s.reg x).setWidth 16) with reg := fun r hr => State.setV_reg_other _ hr _ }

/-- Settles O22: the mask clears its own complement, whatever byte is drawn. -/
theorem rndStoresMaskedDraw : Obligations.RndStoresMaskedDraw := by
  intro x kk s
  have hreg : (((s.setV x (Config.randomByte s.draws &&& kk)).setDraws (s.draws + 1)).commit 2).reg x =
      Config.randomByte s.draws &&& kk := State.setV_reg_same s x _
  refine ⟨_, exec_rnd x kk s, hreg, ?_, rfl, rfl, rfl, Keeps.commit ?_ 2⟩
  · rw [hreg, BitVec.and_assoc, BitVec.and_not_self]
    exact BitVec.and_zero
  · constructor <;> intros
    case reg r hr => exact State.setV_reg_other s hr _
    case draws h => exact absurd (List.mem_singleton_self _) h
    all_goals rfl

end Sys2Proof.Safety
end

section
/-! The moves of the machine (40_cycle.md section 1; 60_exceptions.md sections 1, 2, 8 and 9): requested steps, timer
events, key writes, and what a fault makes of the machine. -/

namespace Sys2Proof.Safety

open Sys2Proof.Machine

/-! ### Requested steps -/

/-- Settles O5: the agenda is no part of what the fetch reads. -/
theorem stepRunsDecodedInstruction : Obligations.StepRunsDecodedInstruction := by
  intro s w i hrun hw hi
  refine ⟨fun hag => ?_, fun rest hag => ?_⟩
  · rw [step_of_agenda_nil hrun hag, tick_of_decode hw hi]
  · rw [step_of_agenda_tick hrun hag]
    exact tick_of_decode (s := s.setAgenda rest) hw hi

/-- Settles O7: the error carries the word fetched, since the decoder answers an illegal word with itself. -/
theorem illegalWordReportsError : Obligations.IllegalWordReportsError := by
  intro s w w' hrun hag hw hw'
  obtain rfl : w' = w := ((illegalWordsExactly w w').1 hw').1
  refine ⟨(step_of_agenda_nil hrun hag).trans (tick_of_unsupported hw hw'), ?_⟩
  obtain ⟨-, rfl⟩ := memRead2_eq_ok.1 hw
  exact assemble_toNat _ _

/-- Settles O8: the head of the agenda is the next move, and a faulted machine has none. -/
theorem hostMovesAreStepsOfTheMachine : Obligations.HostMovesAreStepsOfTheMachine :=
  ⟨fun _ _ => step_of_agenda_timerTick, fun _ _ _ _ => step_of_agenda_keyWrite, fun _ => step_of_faulted⟩

/-! ### Timer events and key writes -/

theorem countDown_toNat (b : Byte) : (countDown b).toNat = b.toNat - 1 := by
  unfold countDown
  split
  · next h => simp [h]
  · next h => bv_omega

/-- Settles O9: each timer counts down by itself, and the rest is no part of a timer event. -/
theorem timerEventCountsDown : Obligations.TimerEventCountsDown := by
  intro s
  refine ⟨countDown_toNat s.dt, countDown_toNat s.st, rfl, rfl, ?_⟩
  constructor <;> intros
  case delay h => exact absurd (List.mem_cons_self ..) h
  case sound h => exact absurd (by decide) h
  all_goals rfl

/-- Settles O10: one flag of the vector is assigned. -/
theorem keyWriteSetsOneFlag : Obligations.KeyWriteSetsOneFlag := by
  intro s k j b
  refine ⟨?_, rfl⟩
  rw [keyWrite, State.setKey_key, Vector.getElem_set]
  simp [Fin.ext_iff, eq_comm]

/-! ### Faults -/

/-- An instruction that answers where its block fits and faults where it does not. -/
theorem next_or_memoryBounds {i : Instr} {s : State} {n : Nat} (hfit : s.i.toNat + n ≤ 4095 → ∃ t, exec i s = .next t)
    (hbeyond : 4095 < s.i.toNat + n → exec i s = .fault (.memoryBounds (max s.i.toNat 4096))) :
    (∃ t, exec i s = .next t) ∨ ∃ a, exec i s = .fault (.memoryBounds a) ∧ 4095 < a := by
  obtain h | h := le_or_gt (s.i.toNat + n) 4095
  · exact .inl (hfit h)
  · exact .inr ⟨_, hbeyond h, by omega⟩

/-- An instruction that looks a key up and then answers a next state. -/
theorem next_or_keyIndex {r : Result} {s : State} {v : Byte} {k : Bool → State}
    (hr : r = orFault (keyDown s v) fun down => .next (k down)) :
    (∃ t, r = .next t) ∨ ∃ v, r = .fault (.keyIndex v) ∧ 15 < v.toNat := by
  subst hr
  obtain h | h := Nat.lt_or_ge 15 v.toNat
  · exact .inr ⟨v, by rw [keyDown_beyond h, orFault_error], h⟩
  · exact .inl ⟨_, by rw [keyDown_of_eq (k := ⟨v.toNat, by omega⟩) rfl, orFault_ok]⟩

theorem exec_drw_or_memoryBounds (x y : RegIdx) (n : Nibble) (s : State) :
    (∃ t, exec (.drw x y n) s = .next t) ∨ ∃ a, exec (.drw x y n) s = .fault (.memoryBounds a) ∧ 4095 < a := by
  obtain h0 | hpos := Nat.eq_zero_or_pos n.toNat
  · exact .inl ⟨_, exec_drw (.inl h0)⟩
  · exact next_or_memoryBounds (n := n.toNat - 1) (fun h => ⟨_, exec_drw (.inr (by omega))⟩)
      fun h => drw_beyond hpos (by omega)

theorem exists_next_orError {α : Type} {s : State} {r : Except StepError α} {k : α → State} :
    ∃ t, orError s r (fun a => .next (k a)) = .next t := by
  cases r <;> exact ⟨_, rfl⟩

/-- Settles O49: the seven instructions with an access fault as the access does; CALL and RET answer an error as a next
state, and the others only update the state. -/
theorem faultsOnlyFromBoundsAndKeys : Obligations.FaultsOnlyFromBoundsAndKeys := by
  intro i s
  cases i with
  | bcd x =>
    refine (next_or_memoryBounds (n := 2) (fun h => ?_) (writeAtIndex_beyond (bs := bcdDigits (s.reg x)) rfl)).imp_right
      fun ⟨a, h, ha⟩ => .inl ⟨a, h, ha, x, 0, 0, .inl rfl⟩
    exact (bcdStoresDigits x s h).imp fun _ ht => ht.1
  | store x =>
    refine (next_or_memoryBounds (fun h => ?_) (writeAtIndex_beyond (regsThrough_length s x))).imp_right
      fun ⟨a, h, ha⟩ => .inl ⟨a, h, ha, x, 0, 0, .inr (.inl rfl)⟩
    exact (storeWritesRegisterBlock x s h).imp fun _ ht => ht.1
  | load x =>
    exact (next_or_memoryBounds (fun h => ⟨_, load_fits h⟩) load_beyond).imp_right
      fun ⟨a, h, ha⟩ => .inl ⟨a, h, ha, x, 0, 0, .inr (.inr (.inl rfl))⟩
  | drw x y n =>
    exact (exec_drw_or_memoryBounds x y n s).imp_right
      fun ⟨a, h, ha⟩ => .inl ⟨a, h, ha, x, y, n, .inr (.inr (.inr rfl))⟩
  | skp x => exact (next_or_keyIndex rfl).imp_right fun ⟨v, h, hv⟩ => .inr ⟨v, h, hv, x, .inl rfl⟩
  | sknp x => exact (next_or_keyIndex rfl).imp_right fun ⟨v, h, hv⟩ => .inr ⟨v, h, hv, x, .inr (.inl rfl)⟩
  | waitkey x => exact (next_or_keyIndex rfl).imp_right fun ⟨v, h, hv⟩ => .inr ⟨v, h, hv, x, .inr (.inr rfl)⟩
  | ret | call => exact .inl exists_next_orError
  | _ => exact .inl ⟨_, rfl⟩

theorem exec_ne_notRunning (i : Instr) (s : State) : exec i s ≠ .fault .notRunning := by
  intro h
  obtain ⟨t, ht⟩ | ⟨a, ha, -⟩ | ⟨v, hv, -⟩ := faultsOnlyFromBoundsAndKeys i s
  · cases ht.symm.trans h
  · cases ha.symm.trans h
  · cases hv.symm.trans h

theorem tick_ne_notRunning (s : State) : tick s ≠ .fault .notRunning := by
  intro h
  obtain hfit | hbeyond := le_or_gt (s.pc.toNat + 1) 4095
  · have hw := fetchWord_fits hfit
    cases hd : decode (assemble (s.byte s.pc.toNat) (s.byte (s.pc.toNat + 1))) with
    | instr i => exact exec_ne_notRunning i s ((tick_of_decode hw hd).symm.trans h)
    | unsupported w' => cases (tick_of_unsupported hw hd).symm.trans h
  · cases (tick_beyond hbeyond).symm.trans h

/-- Of a running machine only a move that was made faults (R224). -/
theorem step_ne_notRunning {s : State} (hrun : s.status = .running) : step s ≠ .fault .notRunning := by
  intro h
  rcases hag : s.agenda with _ | ⟨_ | _ | ⟨k, b⟩, rest⟩
  · exact tick_ne_notRunning s ((step_of_agenda_nil hrun hag).symm.trans h)
  · exact tick_ne_notRunning _ ((step_of_agenda_tick hrun hag).symm.trans h)
  · cases (step_of_agenda_timerTick hrun hag).symm.trans h
  · cases (step_of_agenda_keyWrite hrun hag).symm.trans h

theorem advance_eq (s : State) : advance s = stateAfter s (step s) := rfl

/-- The machine after a move has the flags it had before (R29), whatever the outcome. -/
theorem advance_keeps_flags (s : State) :
    (advance s).legacyShift = s.legacyShift ∧ (advance s).chip48Jump = s.chip48Jump := by
  rw [advance_eq]
  cases h : step s with
  | next t => exact stepKeepsConfigurationFlags s t h
  | fault f => cases f <;> exact ⟨rfl, rfl⟩
  | refused r => exact ⟨rfl, rfl⟩

/-- Settles O57: a next state is running as the state before, and a fault of a running machine is one of a move that was
made, after which the machine is the faulted one. -/
theorem statusBecomesFaultedWhenAMoveFaults : Obligations.StatusBecomesFaultedWhenAMoveFaults := by
  refine ⟨fun s hrun => ⟨fun hfaulted => ?_, fun ⟨f, hf⟩ => ?_⟩, fun s t h => advance_of_next h, fun s h => ?_,
    advance_keeps_flags⟩
  · rw [AfterFault, advance_eq] at hfaulted
    cases h : step s with
    | next t =>
      obtain ⟨-, -, hstatus⟩ := step_keeps_flags_status h
      rw [h, stateAfter_next, hstatus, hrun] at hfaulted
      cases hfaulted
    | fault f => exact ⟨f, rfl⟩
    | refused r =>
      rw [h] at hfaulted
      cases hrun.symm.trans hfaulted
  · rw [AfterFault, advance_of_fault hf fun heq => step_ne_notRunning hrun (heq ▸ hf), enterFaulted_status]
  · rw [advance_eq, step_of_faulted h]
    exact ⟨rfl, rfl⟩

/-! ### A placed instruction -/

/-- The table's bits of a whole word are the word. -/
theorem tableWord_toNat (w : Word) : tableWord 16 w.toNat = w := by
  simp [tableWord, Nat.mod_eq_of_lt w.isLt]

/-- A word is its two bytes, high byte first (R50). -/
theorem assemble_bytes (w : Word) : assemble (w.extractLsb' 8 8) (w.extractLsb' 0 8) = w :=
  (BitVec.extractLsb'_append_extractLsb'_eq_extractLsb' rfl).trans (by simp)

/-- A word placed at `pc` is the word fetched. -/
theorem fetchWord_placeWord {s : State} (hpc : s.pc.toNat + 1 ≤ 4095) (w : Word) :
    fetchWord (placeWord s w) = .ok w := by
  have hmem : (placeWord s w).mem = Memory.write (Memory.write s.mem s.pc.toNat (w.extractLsb' 8 8)) (s.pc.toNat + 1)
      (w.extractLsb' 0 8) := if_pos hpc
  refine memRead2_eq_ok.2 ⟨hpc, ?_⟩
  rw [hmem]
  simp [Memory.read_write, show (placeWord s w).pc = s.pc from rfl, assemble_bytes]

/-- Settles O56: the placed word is fetched, and it decodes to the instruction by the round trip. -/
theorem placedInstructionRunsNext : Obligations.PlacedInstructionRunsNext := by
  intro s i hi hpc
  have hdecode := decodeEncodeRoundTrip i hi
  rw [State.withFetchWord, tableWord_toNat]
  obtain ⟨hnil, -⟩ := stepRunsDecodedInstruction (placeWord s (encode i)) _ i rfl (fetchWord_placeWord hpc _) hdecode
  refine ⟨hnil rfl, rfl, ?_⟩
  rw [decodeTableWord, tableWord_toNat, wordBytes, decodeBytes, assemble_bytes, hdecode]

end Sys2Proof.Safety
end

section
/-! Reset and boot (70_reset_and_hazards.md sections 1 and 2): the values of the reset state, and what the two loads
leave in memory. -/

namespace Sys2Proof.Safety

open Sys2Proof.Machine

/-! ### Reset -/

theorem construct_reg (b c : Bool) (r : RegIdx) : (State.construct b c).reg r = 0 :=
  Vector.getElem_replicate ..

theorem construct_pixel (b c : Bool) (cx : Fin 64) (cy : Fin 32) : (State.construct b c).pixel cx cy = false :=
  Display.get_clear false cx cy

theorem construct_key (b c : Bool) (k : Fin 16) : (State.construct b c).key[k.val] = false :=
  Vector.getElem_replicate ..

/-- Settles O43: the fields of the constructed machine. -/
theorem resetValues : Obligations.ResetValues :=
  ⟨construct_reg false false, rfl, rfl, rfl, rfl, rfl, fun _ => rfl, construct_pixel false false, rfl, rfl, rfl, rfl,
    rfl, rfl, rfl⟩

/-- A machine without stack and memory contents, running, meets the invariant wherever `pc` is in range. -/
theorem inv_of_fresh {s : State} (hmem : Memory.wf s.mem) (hstk : s.stk = []) (hpc : s.pc.toNat ≤ 0x10FE)
    (hrun : s.status = .running) : Inv s :=
  ⟨hmem, by simp [hstk], by simp [hstk], hpc, hrun⟩

/-- Settles O40: nothing is stored or stacked yet, and `pc` is in range. -/
theorem resetMeetsInvariant : Obligations.ResetMeetsInvariant :=
  inv_of_fresh Memory.wf_nil rfl (by decide) rfl

/-! ### Bytes placed in memory -/

/-- Placing bytes that fit is the block write of the machine. -/
theorem writeBlock_eq_placeBytes {bs : List Byte} {m : Memory} {a : Nat} (h : a + bs.length ≤ 4096) :
    writeBlock m a bs = .ok (placeBytes m a bs) := by
  induction bs generalizing m a with
  | nil => rfl
  | cons b bs ih =>
    rw [List.length_cons] at h
    rw [writeBlock, memWrite1_eq_ok.2 ⟨by omega, rfl⟩]
    exact ih (by omega)

theorem placeBytes_wf {bs : List Byte} {m : Memory} {a : Nat} (h : a + bs.length ≤ 4096) (hm : Memory.wf m) :
    Memory.wf (placeBytes m a bs) := writeBlock_wf (writeBlock_eq_placeBytes h) hm

theorem read_placeBytes {bs : List Byte} {m : Memory} {a : Nat} (h : a + bs.length ≤ 4096) (c : Nat) :
    Memory.read (placeBytes m a bs) c = if h : a ≤ c ∧ c - a < bs.length then bs[c - a]'h.2 else Memory.read m c := by
  obtain ⟨m', hm', hread, -⟩ := writeBlock_fits bs m a h
  rw [Except.ok.inj ((writeBlock_eq_placeBytes h).symm.trans hm')]
  exact hread c

/-! ### Boot -/

section
variable (legacy chip48 : Bool) (font : Vector Byte 80) (base : Fin 4096) (image : List Byte)

/-- Memory after the two loads (R264). -/
def bootMem : Memory := placeBytes (placeBytes [] 0 font.toList) base.val image

/-- The boot state of an image that fits (R266). -/
def booted : State :=
  ((State.construct legacy chip48).setMem (bootMem font base image)).setPc (BitVec.ofNat 16 base.val)

end

section
variable {legacy chip48 : Bool} {font : Vector Byte 80} {base : Fin 4096} {image : List Byte}

theorem boot_fits (h : base.val + image.length ≤ 4096) :
    boot legacy chip48 font base image = some (booted legacy chip48 font base image) := if_pos h

theorem boot_beyond (h : 4096 < base.val + image.length) : boot legacy chip48 font base image = none :=
  if_neg (Nat.not_le.2 h)

theorem booted_pc : (booted legacy chip48 font base image).pc.toNat = base.val :=
  Nat.mod_eq_of_lt (by omega)

theorem booted_byte (h : base.val + image.length ≤ 4096) (a : Nat) :
    (booted legacy chip48 font base image).byte a =
      if h : base.val ≤ a ∧ a - base.val < image.length then image[a - base.val]'h.2
      else if h : a < 80 then font[a] else 0 := by
  show Memory.read (bootMem font base image) a = _
  rw [bootMem, read_placeBytes h, read_placeBytes (by simp)]
  simp [Memory.read, Memory.unlisted]

end

/-- Settles O44: the image is placed last, so it covers the font, which covers the zeros. -/
theorem bootPlacesFontAndImage : Obligations.BootPlacesFontAndImage := by
  intro legacy chip48 font base image
  refine ⟨fun h => ⟨_, boot_fits h, booted_pc, fun k hk => ?_, fun a ha hout => ?_, fun a ha hout => ?_, rfl, rfl,
    construct_reg legacy chip48, rfl, rfl, rfl, rfl, construct_pixel legacy chip48, construct_key legacy chip48, rfl⟩,
    boot_beyond⟩
  · rw [booted_byte h]
    simp [hk]
  · rw [booted_byte h, dif_neg (by omega), dif_pos ha]
  · rw [booted_byte h, dif_neg (by omega), dif_neg (by omega)]

/-- Settles O41: only images that fit are booted, and placing bytes that fit keeps memory canonical. -/
theorem bootMeetsInvariant : Obligations.BootMeetsInvariant := by
  intro legacy chip48 font base image s hs
  have hfit : base.val + image.length ≤ 4096 := by
    by_contra hbeyond
    rw [boot_beyond (Nat.not_le.1 hbeyond)] at hs
    cases hs
  obtain rfl := Option.some.inj ((boot_fits hfit).symm.trans hs)
  have hfont : Memory.wf (placeBytes [] 0 font.toList) := placeBytes_wf (by simp) Memory.wf_nil
  refine inv_of_fresh (placeBytes_wf hfit hfont) rfl ?_ rfl
  rw [booted_pc]
  omega

end Sys2Proof.Safety
end
